-- ==== Sys2Proof/Word.lean ====
section
/-! DEFINITION. The unit of data of the block: the 8-bit byte, the 12-bit command word and the direction tag. -/

namespace Sys2Proof

/-- A byte is 8 bits, bit 7 the most significant (`00_scope.md` R5, `20_memory.md` R45). -/
abbrev Byte := BitVec 8

/-- The 12-bit host command word CW: op in bits 11:8, data in bits 7:0 (`30_encoding.md` R71). -/
abbrev CmdWord := BitVec 12

/-- The direction tag, a 1-bit value: 0 uplink, 1 downlink (`00_scope.md` R7). -/
inductive Direction where
  | uplink
  | downlink
  deriving DecidableEq, Repr

/-- The tag as the byte the B0 block carries at index 5 and the read port shows: 0 uplink, 1 downlink
(R7, `46_mic_assembler.md` R164). -/
def Direction.toByte : Direction → Byte
  | .uplink => 0x00
  | .downlink => 0x01

end Sys2Proof
end

