-- ==== Sys2Proof/Config.lean ====
section
/-! DEFINITION. What an implementation fixes (the capacity PHY_MAX) and the free value the spec leaves open. -/

namespace Sys2Proof

/-- The one free parameter of the block, PHY_MAX, the capacity of the frame buffer in bytes (`00_scope.md` R4). It is
carried in State, because exec has no other argument, and no step changes it (log 4: DESIGN CHOICE). -/
structure Config where
  phyMax : Nat
  deriving DecidableEq, Repr

/-- The default of R4. -/
def Config.default : Config := { phyMax := 255 }

/-- The range of R4: 33 <= PHY_MAX <= 259. -/
def Config.ok (c : Config) : Bool := decide (33 ≤ c.phyMax) && decide (c.phyMax ≤ 259)

/-- The byte a host read of FB at or above LEN, or of OB at or above OLEN, returns: the spec says "an unspecified byte"
(`10_state.md` R24, `93_implementation_defined.md` I12), so nothing is known of it. The argument is the draw's number
(log 6: DESIGN CHOICE; a free value). -/
opaque Config.freeByte : Nat → Byte

end Sys2Proof
end

