-- ==== Sys2Proof/Syntax.lean ====
section
/-! DEFINITION. The instructions: one constructor for each of the 26 rows of spec/opcode_table.json. -/

namespace Sys2Proof

/-- The sixteen command codes of `30_encoding.md` R72, the eight MHdr type codes of R62 and the two FCtrl formats of R63
and R64. A command that has no operand keeps the eight data bits its meaning ignores (R71), so that a term and its word
determine each other. The MHdr and FCtrl rows are the block's internal operations (log 10). -/
inductive Instr where
  -- host commands, format CMD
  | nop (ignored : Byte)
  | clear (ignored : Byte)
  | push (data : Byte)
  | parse (ignored : Byte)
  | calcmic (ignored : Byte) (key : List Byte)
  | verify (ignored : Byte) (key : List Byte)
  | serialize (ignored : Byte)
  | reserved7 (ignored : Byte)
  | reserved8 (ignored : Byte)
  | reserved9 (ignored : Byte)
  | reservedA (ignored : Byte)
  | reservedB (ignored : Byte)
  | reservedC (ignored : Byte)
  | reservedD (ignored : Byte)
  | reservedE (ignored : Byte)
  | reservedF (ignored : Byte)
  -- message-type codes, format MHDR: the five low bits are kept uninterpreted (R61)
  | joinRequest (low : BitVec 5)
  | joinAccept (low : BitVec 5)
  | unconfirmedDataUp (low : BitVec 5)
  | unconfirmedDataDown (low : BitVec 5)
  | confirmedDataUp (low : BitVec 5)
  | confirmedDataDown (low : BitVec 5)
  | unsupportedType6 (low : BitVec 5)
  | unsupportedType7 (low : BitVec 5)
  -- frame-control bytes, formats FCTRL_UP (AQKRLLLL) and FCTRL_DOWN (ARKPLLLL)
  | fctrlUp (adr adrackreq ack rfu : Bool) (foptslen : BitVec 4)
  | fctrlDown (adr rfu ack fpending : Bool) (foptslen : BitVec 4)
  deriving DecidableEq, Repr

/-- The opcode table's column "format": which of the block's four encoded things an instruction is written in. -/
inductive Format where
  | cmd
  | mhdr
  | fctrlUp
  | fctrlDown
  deriving DecidableEq, Repr

/-- The format of each row of the opcode table. -/
def Instr.format : Instr → Format
  | .nop _ => .cmd
  | .clear _ => .cmd
  | .push _ => .cmd
  | .parse _ => .cmd
  | .calcmic _ _ => .cmd
  | .verify _ _ => .cmd
  | .serialize _ => .cmd
  | .reserved7 _ => .cmd
  | .reserved8 _ => .cmd
  | .reserved9 _ => .cmd
  | .reservedA _ => .cmd
  | .reservedB _ => .cmd
  | .reservedC _ => .cmd
  | .reservedD _ => .cmd
  | .reservedE _ => .cmd
  | .reservedF _ => .cmd
  | .joinRequest _ => .mhdr
  | .joinAccept _ => .mhdr
  | .unconfirmedDataUp _ => .mhdr
  | .unconfirmedDataDown _ => .mhdr
  | .confirmedDataUp _ => .mhdr
  | .confirmedDataDown _ => .mhdr
  | .unsupportedType6 _ => .mhdr
  | .unsupportedType7 _ => .mhdr
  | .fctrlUp _ _ _ _ _ => .fctrlUp
  | .fctrlDown _ _ _ _ _ => .fctrlDown

end Sys2Proof
end

