-- ==== Sys2Proof/WellFormed.lean ====
section
/-! DEFINITION. Which instruction terms stand for something the block can be given. -/

namespace Sys2Proof

/-- A key is 16 bytes (`00_scope.md` R5, `30_encoding.md` R71). -/
def keyOk (key : List Byte) : Bool := decide (key.length = 16)

/-- The checks on a term. Every other operand has exactly its field's width by its type; the key operand of the two MIC
commands must be 16 bytes. -/
def Instr.wf : Instr → Bool
  | .nop _ => true
  | .clear _ => true
  | .push _ => true
  | .parse _ => true
  | .calcmic _ key => keyOk key
  | .verify _ key => keyOk key
  | .serialize _ => true
  | .reserved7 _ => true
  | .reserved8 _ => true
  | .reserved9 _ => true
  | .reservedA _ => true
  | .reservedB _ => true
  | .reservedC _ => true
  | .reservedD _ => true
  | .reservedE _ => true
  | .reservedF _ => true
  | .joinRequest _ => true
  | .joinAccept _ => true
  | .unconfirmedDataUp _ => true
  | .unconfirmedDataDown _ => true
  | .confirmedDataUp _ => true
  | .confirmedDataDown _ => true
  | .unsupportedType6 _ => true
  | .unsupportedType7 _ => true
  | .fctrlUp _ _ _ _ _ => true
  | .fctrlDown _ _ _ _ _ => true

end Sys2Proof
end

