-- ==== Sys2Proof/Decode.lean ====
section
/-! DEFINITION. From the bits of the four formats to instructions (`30_encoding.md` R62 to R64, R71, R72) and back. -/

namespace Sys2Proof

/-- Why a byte sequence is no instruction of a format. -/
inductive DecodeReject where
  /-- There is no byte at all. -/
  | noBytes
  /-- A command word needs two bytes of carrier and only one is there. -/
  | halfCommandWord
  /-- Bits 15:12 of the carrier are not zero: a command word has 12 bits (R71). -/
  | widerThanTwelveBits
  /-- CALCMIC or VERIFY with fewer than 16 key bytes after the word (R71). -/
  | keyShort
  deriving DecidableEq, Repr

/-- The 16-byte key operand K that the host presents beside the word, K[0] first (R71). -/
abbrev Key := Vector Byte 16

/-- The key of sixteen 0x00. -/
def zeroKey : Key := Vector.replicate 16 0

/-- The command-code map of R72. Every 12-bit word is a command: codes 7 to 15 are the reserved ones (R74 f). The key is
an operand of CALCMIC and VERIFY and ignored by every other command (R71). -/
def decodeCommand (cw : CmdWord) (key : Key) : Instr :=
  let data : Byte := cw.extractLsb' 0 8
  match (cw.extractLsb' 8 4).toNat with
  | 0x0 => .nop data
  | 0x1 => .clear data
  | 0x2 => .push data
  | 0x3 => .parse data
  | 0x4 => .calcmic data key.toList
  | 0x5 => .verify data key.toList
  | 0x6 => .serialize data
  | 0x7 => .reserved7 data
  | 0x8 => .reserved8 data
  | 0x9 => .reserved9 data
  | 0xA => .reservedA data
  | 0xB => .reservedB data
  | 0xC => .reservedC data
  | 0xD => .reservedD data
  | 0xE => .reservedE data
  | _ => .reservedF data

/-- The type-code map of R62: the top three bits of MHdr choose, the low five are kept (R61, R129). -/
def decodeMhdr (b : Byte) : Instr :=
  let low : BitVec 5 := b.extractLsb' 0 5
  match (b.extractLsb' 5 3).toNat with
  | 0 => .joinRequest low
  | 1 => .joinAccept low
  | 2 => .unconfirmedDataUp low
  | 3 => .unconfirmedDataDown low
  | 4 => .confirmedDataUp low
  | 5 => .confirmedDataDown low
  | 6 => .unsupportedType6 low
  | _ => .unsupportedType7 low

/-- The two readings of the frame-control byte, R63 for an uplink and R64 for a downlink. All 256 values are valid. -/
def decodeFctrl (d : Direction) (b : Byte) : Instr :=
  match d with
  | .uplink => .fctrlUp (b.getLsbD 7) (b.getLsbD 6) (b.getLsbD 5) (b.getLsbD 4) (b.extractLsb' 0 4)
  | .downlink => .fctrlDown (b.getLsbD 7) (b.getLsbD 6) (b.getLsbD 5) (b.getLsbD 4) (b.extractLsb' 0 4)

/-- Does the word's code take a key operand (R71: CALCMIC and VERIFY do)? -/
def takesKey (cw : CmdWord) : Bool :=
  let op := (cw.extractLsb' 8 4).toNat
  op == 4 || op == 5

/-- The first 16 bytes as a key, and the rest. -/
def takeKey (bs : List Byte) : Option (Key × List Byte) :=
  if h : 16 ≤ bs.length then
    some (⟨(bs.take 16).toArray, by simp [h]⟩, bs.drop 16)
  else
    none

/-- Decoding from a byte sequence, total, answering the instruction and the bytes after it. A command word stands in two
bytes, the low byte first, bits 15:12 zero, and the key bytes of a MIC command follow it: the spec fixes the 12-bit word
and the key but no byte carrier (R186), so the carrier is log 9's (DESIGN CHOICE). -/
def decode : Format → List Byte → Except DecodeReject (Instr × List Byte)
  | _, [] => .error .noBytes
  | .cmd, [_] => .error .halfCommandWord
  | .cmd, lo :: hi :: rest =>
    if hi.toNat < 16 then
      let cw : CmdWord := hi.extractLsb' 0 4 ++ lo
      if takesKey cw then
        match takeKey rest with
        | some (key, rest') => .ok (decodeCommand cw key, rest')
        | none => .error .keyShort
      else
        .ok (decodeCommand cw zeroKey, rest)
    else
      .error .widerThanTwelveBits
  | .mhdr, b :: rest => .ok (decodeMhdr b, rest)
  | .fctrlUp, b :: rest => .ok (decodeFctrl .uplink b, rest)
  | .fctrlDown, b :: rest => .ok (decodeFctrl .downlink b, rest)

/-- The carrier bytes of the command word with code op and data bits d (R71, R72; log 9). -/
def commandBytes (op : BitVec 4) (d : Byte) : List Byte := [d, (0#4 ++ op : BitVec 8)]

/-- The MHdr byte of a type code and the five low bits (R61). -/
def mhdrByte (code : BitVec 3) (low : BitVec 5) : Byte := code ++ low

/-- The FCtrl byte of its four single bits, bit 7 first, and FOptsLen (R63, R64). -/
def fctrlByte (b7 b6 b5 b4 : Bool) (foptslen : BitVec 4) : Byte :=
  BitVec.ofBool b7 ++ (BitVec.ofBool b6 ++ (BitVec.ofBool b5 ++ (BitVec.ofBool b4 ++ foptslen)))

/-- The bytes of an instruction, from the same tables (R62 to R64, R71, R72). -/
def encode : Instr → List Byte
  | .nop d => commandBytes 0x0 d
  | .clear d => commandBytes 0x1 d
  | .push d => commandBytes 0x2 d
  | .parse d => commandBytes 0x3 d
  | .calcmic d key => commandBytes 0x4 d ++ key
  | .verify d key => commandBytes 0x5 d ++ key
  | .serialize d => commandBytes 0x6 d
  | .reserved7 d => commandBytes 0x7 d
  | .reserved8 d => commandBytes 0x8 d
  | .reserved9 d => commandBytes 0x9 d
  | .reservedA d => commandBytes 0xA d
  | .reservedB d => commandBytes 0xB d
  | .reservedC d => commandBytes 0xC d
  | .reservedD d => commandBytes 0xD d
  | .reservedE d => commandBytes 0xE d
  | .reservedF d => commandBytes 0xF d
  | .joinRequest low => [mhdrByte 0 low]
  | .joinAccept low => [mhdrByte 1 low]
  | .unconfirmedDataUp low => [mhdrByte 2 low]
  | .unconfirmedDataDown low => [mhdrByte 3 low]
  | .confirmedDataUp low => [mhdrByte 4 low]
  | .confirmedDataDown low => [mhdrByte 5 low]
  | .unsupportedType6 low => [mhdrByte 6 low]
  | .unsupportedType7 low => [mhdrByte 7 low]
  | .fctrlUp a q k r n => [fctrlByte a q k r n]
  | .fctrlDown a r k p n => [fctrlByte a r k p n]

/-- How many bytes an instruction takes: a command word two, its key sixteen more, an MHdr or FCtrl byte one (R61, R63,
R64, R71; log 9). -/
def Instr.size : Instr → Nat
  | .calcmic _ _ => 18
  | .verify _ _ => 18
  | i => match i.format with
    | .cmd => 2
    | .mhdr => 1
    | .fctrlUp => 1
    | .fctrlDown => 1

/-- The instruction the decoder reads from a word of the opcode table. A row of 8 bits is read as an MHdr byte: the two
FCtrl rows have no bits of their own that tell them from it (mask 0x00), the direction of the message does (R110; log
10). A longer row is a command word, its key sixteen 0x00 bytes. -/
def decodeTableWord (nbits w : Nat) : Option Instr :=
  if nbits ≤ 8 then
    if w < 256 then
      match decode .mhdr [BitVec.ofNat 8 w] with
      | .ok (i, _) => some i
      | .error _ => none
    else
      none
  else if w < 65536 then
    match decode .cmd (BitVec.ofNat 8 w :: BitVec.ofNat 8 (w / 256) :: List.replicate 16 0) with
    | .ok (i, _) => some i
    | .error _ => none
  else
    none

end Sys2Proof
end

