-- ==== Sys2Proof/Machine/State.lean ====
section
/-! DEFINITION. The state of the block (`10_state.md` R10), the reasons a step can stop, and the state after reset. -/

namespace Sys2Proof.Machine

/-- The tag of the held message variant, register VARIANT (`10_state.md` R12); the 3-bit value 6 never occurs. -/
inductive Variant where
  | joinRequest
  | joinAccept
  | unconfirmedDataUp
  | unconfirmedDataDown
  | confirmedDataUp
  | confirmedDataDown
  | noVariant
  deriving DecidableEq, Repr

/-- The error kinds of register ERR (`60_exceptions.md` R206); the 3-bit values 6 and 7 are never produced. -/
inductive ErrorKind where
  | noError
  | unsupportedType
  | truncatedFrame
  | unimplemented
  | overflow
  | badCommand
  deriving DecidableEq, Repr

/-- What `raise E(sub)` leaves: the kind for ERR and the sub-cause for ERRSUB (R207, R214). -/
structure Raise where
  kind : ErrorKind
  sub : BitVec 4
  deriving DecidableEq, Repr

/-- Which MIC command is pending, PEND.kind (R22, `30_encoding.md` R79). -/
inductive MicKind where
  | calc
  | verify
  deriving DecidableEq, Repr

/-- The pending request PEND to the CMAC engine (R22). The key has 16 bytes in every reachable state. -/
structure Request where
  kind : MicKind
  key : List Byte
  msg : List Byte
  deriving DecidableEq, Repr

/-- A decoded frame-control byte, the record of `41_frame_control.md` R105. -/
structure FrameControl where
  fctrl : Byte
  adr : Bool
  adrackreq : Bool
  ack : Bool
  fpending : Bool
  rfu : Bool
  foptslen : BitVec 4
  deriving DecidableEq, Repr

/-- A decoded frame header, the tuple of `42_frame_header.md` R115; fopts has foptslen bytes. -/
structure FrameHeader where
  devaddr : BitVec 32
  fc : FrameControl
  fcnt : BitVec 16
  fopts : List Byte
  fhdrlen : BitVec 5
  deriving DecidableEq, Repr

/-- The fields of a join-request (`44_join_messages.md` R140). -/
structure JoinRequestFields where
  appeui : BitVec 64
  deveui : BitVec 64
  devnonce : Vector Byte 2
  deriving DecidableEq, Repr

/-- The fields of a join-accept (R142). -/
structure JoinAcceptFields where
  appnonce : Vector Byte 3
  netid : Vector Byte 3
  devaddr : BitVec 32
  dlsettings : Byte
  rxdelay : Byte
  cflistp : Bool
  cflist : Vector Byte 16
  deriving DecidableEq, Repr

/-- The fields of a data message (`45_data_messages.md` R150). -/
structure DataFields where
  dir : Direction
  header : FrameHeader
  fportp : Bool
  fport : Byte
  frmoff : BitVec 9
  frmlen : BitVec 9
  deriving DecidableEq, Repr

/-- The parse-result registers (R13 to R17), written by PARSE and returned to their reset values by INVALIDATE(). -/
structure Results where
  mhdr : Byte
  mtype : BitVec 3
  maclen : BitVec 9
  mic : Vector Byte 4
  dir : Direction
  devaddr : BitVec 32
  fctrl : Byte
  adr : Bool
  adrackreq : Bool
  ack : Bool
  fpending : Bool
  rfu : Bool
  foptslen : BitVec 4
  fcnt : BitVec 16
  fopts : Vector Byte 15
  fhdrlen : BitVec 5
  fportp : Bool
  fport : Byte
  frmoff : BitVec 9
  frmlen : BitVec 9
  appeui : BitVec 64
  deveui : BitVec 64
  devnonce : Vector Byte 2
  appnonce : Vector Byte 3
  netid : Vector Byte 3
  dlsettings : Byte
  rxdelay : Byte
  cflistp : Bool
  cflist : Vector Byte 16
  deriving DecidableEq, Repr

/-- The reset values of the parse-result registers (R26): zero everywhere. -/
def Results.reset : Results :=
  { mhdr := 0, mtype := 0, maclen := 0, mic := Vector.replicate 4 0
    dir := .uplink, devaddr := 0, fctrl := 0, adr := false, adrackreq := false, ack := false, fpending := false
    rfu := false, foptslen := 0, fcnt := 0, fopts := Vector.replicate 15 0, fhdrlen := 0
    fportp := false, fport := 0, frmoff := 0, frmlen := 0
    appeui := 0, deveui := 0, devnonce := Vector.replicate 2 0
    appnonce := Vector.replicate 3 0, netid := Vector.replicate 3 0, dlsettings := 0, rxdelay := 0
    cflistp := false, cflist := Vector.replicate 16 0 }

/-- One move of an agent outside the block: the host's three (`40_host_commands.md` R95) and the engine's one
(`47_cmac_interface.md` R182). -/
inductive Move where
  /-- The host presents a command word and a key operand (R71, R90). -/
  | command (cw : CmdWord) (key : Key)
  /-- The CMAC engine delivers its response; WAIT in the notation of `30_encoding.md` R77. -/
  | response
  /-- The host reads a register by number and, for an array register, index (`10_state.md` R24). -/
  | read (no : BitVec 6) (idx : Nat)
  /-- The host asserts reset (`70_reset_and_hazards.md` R235). -/
  | reset
  deriving DecidableEq, Repr

/-- The state. The fields from fb to pend are the spec's (R10); the last four are the model's own: the parameter
PHY_MAX (log 4), the moves still to come (log 1), the counter of free values (log 6) and the read port's last answer
(log 7). -/
structure State where
  fb : Memory
  len : BitVec 9
  ovf : Bool
  variant : Variant
  results : Results
  err : ErrorKind
  errsub : BitVec 4
  cmic : Vector Byte 4
  micdone : Bool
  micok : Bool
  ob : Memory
  olen : BitVec 9
  busy : Bool
  pend : Option Request
  config : Config
  moves : List Move
  draws : Nat
  rdData : BitVec 64
  deriving DecidableEq, Repr

/-- Why the machine stops. The spec's errors are no faults: they are recorded in ERR and the block goes on (R205, R215). -/
inductive Fault where
  /-- BUSY = 1 and no request is outstanding, so no response will ever come and no command is ever accepted: the hang of
  R182 and R245, which only reset ends. Raised by the engine's step (respond). Safe: the machine stops where the spec
  says it waits for ever. No state reachable from reset has it (log 14). -/
  | busyWithoutRequest
  deriving DecidableEq, Repr

/-- Why a step has no meaning. -/
inductive Refusal where
  /-- The instruction of this mnemonic has no meaning in the model yet. Raised by exec's arms only; no arm does. Safe. -/
  | notModelled (mnemonic : String)
  deriving DecidableEq, Repr

/-- The state after reset (R26, R235): FB and OB hold nothing (log 5), VARIANT is 7, everything else zero or empty, and
the model's own fields are as logs 1, 4, 6 and 7 say. -/
def State.reset : State :=
  { fb := [], len := 0, ovf := false
    variant := .noVariant, results := Results.reset
    err := .noError, errsub := 0
    cmic := Vector.replicate 4 0, micdone := false, micok := false
    ob := [], olen := 0
    busy := false, pend := none
    config := Config.default, moves := [], draws := 0, rdData := 0 }

end Sys2Proof.Machine
end

