-- ==== Sys2Proof/Machine/Operands.lean ====
section
/-! DEFINITION. How operands are assembled from bytes (`30_encoding.md` R76, `20_memory.md` R43, R44). -/

namespace Sys2Proof.Machine

/-- The little-endian integer of a byte sequence (`00_scope.md` section 4). -/
def le : List Byte → Nat
  | [] => 0
  | b :: bs => b.toNat + 256 * le bs

/-- The n-byte sequence whose little-endian integer is v (section 4). -/
def lebytes : Nat → Nat → List Byte
  | 0, _ => []
  | n + 1, v => BitVec.ofNat 8 v :: lebytes n (v / 256)

/-- The byte at an index of a byte sequence that is long enough (every use follows its length check, R48). -/
def byteAt (bs : List Byte) (i : Nat) : Byte := bs.getD i 0

/-- The n bytes of a sequence from index a up: `s[a .. a+n-1]`. -/
def sub (bs : List Byte) (a n : Nat) : List Byte := (bs.drop a).take n

/-- A byte array register of n elements holding a sequence from element 0 up, 0x00 in the elements above it. -/
def fit (n : Nat) (bs : List Byte) : Vector Byte n :=
  ⟨(bs.take n ++ List.replicate (n - bs.length) 0).toArray, by simp; omega⟩

/-- The type code MHdr[7:5] (R76 a, `43_parse_dispatch.md` R129). -/
def mtypeOf (mhdr : Byte) : BitVec 3 := mhdr.extractLsb' 5 3

/-- MacPayload, FB[1 .. LEN-5] (`20_memory.md` R41, R128). -/
def State.mac (s : State) : List Byte := s.fb.slice 1 (s.len.toNat - 5)

/-- The MIC trailer, FB[LEN-4 .. LEN-1] (R41, R128). -/
def State.trailer (s : State) : List Byte := s.fb.slice (s.len.toNat - 4) 4

/-- MSG(), the authenticated message FB[0 .. LEN-5] (`46_mic_assembler.md` R160). -/
def State.msg (s : State) : List Byte := s.fb.slice 0 (s.len.toNat - 4)

/-- FRMPayload, the view FB[FRMOFF .. FRMOFF+FRMLEN-1] (`10_state.md` R15). -/
def State.frmPayload (s : State) : List Byte := s.fb.slice s.results.frmoff.toNat s.results.frmlen.toNat

/-- The 3-bit value of VARIANT (R12, R79). -/
def Variant.tag : Variant → BitVec 3
  | .joinRequest => 0
  | .joinAccept => 1
  | .unconfirmedDataUp => 2
  | .unconfirmedDataDown => 3
  | .confirmedDataUp => 4
  | .confirmedDataDown => 5
  | .noVariant => 7

/-- The 3-bit value of ERR (`60_exceptions.md` R206, `30_encoding.md` R78). -/
def ErrorKind.code : ErrorKind → BitVec 3
  | .noError => 0
  | .unsupportedType => 1
  | .truncatedFrame => 2
  | .unimplemented => 3
  | .overflow => 4
  | .badCommand => 5

end Sys2Proof.Machine
end

