-- ==== Sys2Proof/Machine/Ops.lean ====
section
/-! DEFINITION. The shared operations over registers: INVALIDATE, taking an error, committing a parse. -/

namespace Sys2Proof.Machine

/-- INVALIDATE(), `10_state.md` R29. It does not touch FB, LEN, OVF, OB's contents, BUSY or PEND. -/
def State.invalidate (s : State) : State :=
  { s with
    variant := .noVariant
    results := Results.reset
    err := .noError
    errsub := 0
    cmic := Vector.replicate 4 0
    micdone := false
    micok := false
    olen := 0 }

/-- Taking an error, `raise E(sub)` (`60_exceptions.md` R214): ERR and ERRSUB are written and the command ends. Nothing
is saved, no mode changes and control goes nowhere; there is no return (R205, R215). -/
def State.raise (s : State) (e : Raise) : State := { s with err := e.kind, errsub := e.sub }

/-- The success commit of PARSE (`43_parse_dispatch.md` R125, R132): the common registers of R13, the variant's own ones
(by f), VARIANT, and ERR = ERRSUB = 0, in one step. -/
def State.commit (s : State) (mhdr : Byte) (v : Variant) (f : Results → Results) : State :=
  { s with
    results := f { s.results with
      mhdr := mhdr
      mtype := mtypeOf mhdr
      maclen := BitVec.ofNat 9 (s.len.toNat - 5)
      mic := fit 4 s.trailer }
    variant := v
    err := .noError
    errsub := 0 }

/-- What CALCMIC and VERIFY clear at issue (`46_mic_assembler.md` R166, R169). -/
def State.clearMic (s : State) : State :=
  { s with cmic := Vector.replicate 4 0, micdone := false, micok := false }

end Sys2Proof.Machine
end

