-- ==== Sys2Proof/Machine/HostCommands.lean ====
section
/-! DEFINITION. NOP, CLEAR, PUSH and the reserved command codes (`40_host_commands.md`). -/

namespace Sys2Proof.Machine

/-- NOP, R91: nothing is written. -/
def execNop (_ignored : Byte) (s : State) : Host.Outcome State Fault Refusal := .next s

/-- CLEAR, R92: INVALIDATE(), LEN <- 0, OVF <- 0. FB and OB contents stay. -/
def execClear (_ignored : Byte) (s : State) : Host.Outcome State Fault Refusal :=
  .next { s.invalidate with len := 0, ovf := false }

/-- PUSH data, R93: INVALIDATE(), then the byte goes to FB[LEN], or is dropped and OVF set when the buffer is full. -/
def execPush (data : Byte) (s : State) : Host.Outcome State Fault Refusal :=
  let s0 := s.invalidate
  if s.len.toNat < s.config.phyMax then
    .next { s0 with fb := s.fb.write s.len.toNat data, len := BitVec.ofNat 9 (s.len.toNat + 1) }
  else
    .next { s0 with ovf := true }

/-- A reserved command code, R94 and R212: BAD_COMMAND with the code as sub-cause, nothing else. -/
def State.badCommand (s : State) (op : BitVec 4) : State := s.raise { kind := .badCommand, sub := op }

/-- Reserved command code 0x7 (R94). -/
def execReserved7 (_ignored : Byte) (s : State) : Host.Outcome State Fault Refusal := .next (s.badCommand 0x7)

/-- Reserved command code 0x8 (R94). -/
def execReserved8 (_ignored : Byte) (s : State) : Host.Outcome State Fault Refusal := .next (s.badCommand 0x8)

/-- Reserved command code 0x9 (R94). -/
def execReserved9 (_ignored : Byte) (s : State) : Host.Outcome State Fault Refusal := .next (s.badCommand 0x9)

/-- Reserved command code 0xA (R94). -/
def execReservedA (_ignored : Byte) (s : State) : Host.Outcome State Fault Refusal := .next (s.badCommand 0xA)

/-- Reserved command code 0xB (R94). -/
def execReservedB (_ignored : Byte) (s : State) : Host.Outcome State Fault Refusal := .next (s.badCommand 0xB)

/-- Reserved command code 0xC (R94). -/
def execReservedC (_ignored : Byte) (s : State) : Host.Outcome State Fault Refusal := .next (s.badCommand 0xC)

/-- Reserved command code 0xD (R94). -/
def execReservedD (_ignored : Byte) (s : State) : Host.Outcome State Fault Refusal := .next (s.badCommand 0xD)

/-- Reserved command code 0xE (R94). -/
def execReservedE (_ignored : Byte) (s : State) : Host.Outcome State Fault Refusal := .next (s.badCommand 0xE)

/-- Reserved command code 0xF (R94). -/
def execReservedF (_ignored : Byte) (s : State) : Host.Outcome State Fault Refusal := .next (s.badCommand 0xF)

/-- The command word of a code and data bits (`30_encoding.md` R71). -/
def commandWord (op : BitVec 4) (data : Byte) : CmdWord := op ++ data

/-- The pseudo-instruction LOAD, R96: CLEAR followed by one PUSH for each byte, as the host's moves. -/
def loadMoves (bytes : List Byte) : List Move :=
  .command (commandWord 0x1 0) zeroKey :: bytes.map (fun b => .command (commandWord 0x2 b) zeroKey)

end Sys2Proof.Machine
end

