-- ==== Sys2Proof/Machine/Cmac.lean ====
section
/-! DEFINITION. AES-128 and AES-CMAC, the function of the external engine (`47_cmac_interface.md` R187, section 2). -/

namespace Sys2Proof.Machine

/-- The S-box for inputs 0x00 to 0x0F (section 2.2). -/
def sboxRow0 : List Byte := [0x63, 0x7C, 0x77, 0x7B, 0xF2, 0x6B, 0x6F, 0xC5, 0x30, 0x01, 0x67, 0x2B, 0xFE, 0xD7, 0xAB, 0x76]

/-- The S-box for inputs 0x10 to 0x1F (section 2.2). -/
def sboxRow1 : List Byte := [0xCA, 0x82, 0xC9, 0x7D, 0xFA, 0x59, 0x47, 0xF0, 0xAD, 0xD4, 0xA2, 0xAF, 0x9C, 0xA4, 0x72, 0xC0]

/-- The S-box for inputs 0x20 to 0x2F (section 2.2). -/
def sboxRow2 : List Byte := [0xB7, 0xFD, 0x93, 0x26, 0x36, 0x3F, 0xF7, 0xCC, 0x34, 0xA5, 0xE5, 0xF1, 0x71, 0xD8, 0x31, 0x15]

/-- The S-box for inputs 0x30 to 0x3F (section 2.2). -/
def sboxRow3 : List Byte := [0x04, 0xC7, 0x23, 0xC3, 0x18, 0x96, 0x05, 0x9A, 0x07, 0x12, 0x80, 0xE2, 0xEB, 0x27, 0xB2, 0x75]

/-- The S-box for inputs 0x40 to 0x4F (section 2.2). -/
def sboxRow4 : List Byte := [0x09, 0x83, 0x2C, 0x1A, 0x1B, 0x6E, 0x5A, 0xA0, 0x52, 0x3B, 0xD6, 0xB3, 0x29, 0xE3, 0x2F, 0x84]

/-- The S-box for inputs 0x50 to 0x5F (section 2.2). -/
def sboxRow5 : List Byte := [0x53, 0xD1, 0x00, 0xED, 0x20, 0xFC, 0xB1, 0x5B, 0x6A, 0xCB, 0xBE, 0x39, 0x4A, 0x4C, 0x58, 0xCF]

/-- The S-box for inputs 0x60 to 0x6F (section 2.2). -/
def sboxRow6 : List Byte := [0xD0, 0xEF, 0xAA, 0xFB, 0x43, 0x4D, 0x33, 0x85, 0x45, 0xF9, 0x02, 0x7F, 0x50, 0x3C, 0x9F, 0xA8]

/-- The S-box for inputs 0x70 to 0x7F (section 2.2). -/
def sboxRow7 : List Byte := [0x51, 0xA3, 0x40, 0x8F, 0x92, 0x9D, 0x38, 0xF5, 0xBC, 0xB6, 0xDA, 0x21, 0x10, 0xFF, 0xF3, 0xD2]

/-- The S-box for inputs 0x80 to 0x8F (section 2.2). -/
def sboxRow8 : List Byte := [0xCD, 0x0C, 0x13, 0xEC, 0x5F, 0x97, 0x44, 0x17, 0xC4, 0xA7, 0x7E, 0x3D, 0x64, 0x5D, 0x19, 0x73]

/-- The S-box for inputs 0x90 to 0x9F (section 2.2). -/
def sboxRow9 : List Byte := [0x60, 0x81, 0x4F, 0xDC, 0x22, 0x2A, 0x90, 0x88, 0x46, 0xEE, 0xB8, 0x14, 0xDE, 0x5E, 0x0B, 0xDB]

/-- The S-box for inputs 0xA0 to 0xAF (section 2.2). -/
def sboxRowA : List Byte := [0xE0, 0x32, 0x3A, 0x0A, 0x49, 0x06, 0x24, 0x5C, 0xC2, 0xD3, 0xAC, 0x62, 0x91, 0x95, 0xE4, 0x79]

/-- The S-box for inputs 0xB0 to 0xBF (section 2.2). -/
def sboxRowB : List Byte := [0xE7, 0xC8, 0x37, 0x6D, 0x8D, 0xD5, 0x4E, 0xA9, 0x6C, 0x56, 0xF4, 0xEA, 0x65, 0x7A, 0xAE, 0x08]

/-- The S-box for inputs 0xC0 to 0xCF (section 2.2). -/
def sboxRowC : List Byte := [0xBA, 0x78, 0x25, 0x2E, 0x1C, 0xA6, 0xB4, 0xC6, 0xE8, 0xDD, 0x74, 0x1F, 0x4B, 0xBD, 0x8B, 0x8A]

/-- The S-box for inputs 0xD0 to 0xDF (section 2.2). -/
def sboxRowD : List Byte := [0x70, 0x3E, 0xB5, 0x66, 0x48, 0x03, 0xF6, 0x0E, 0x61, 0x35, 0x57, 0xB9, 0x86, 0xC1, 0x1D, 0x9E]

/-- The S-box for inputs 0xE0 to 0xEF (section 2.2). -/
def sboxRowE : List Byte := [0xE1, 0xF8, 0x98, 0x11, 0x69, 0xD9, 0x8E, 0x94, 0x9B, 0x1E, 0x87, 0xE9, 0xCE, 0x55, 0x28, 0xDF]

/-- The S-box for inputs 0xF0 to 0xFF (section 2.2). -/
def sboxRowF : List Byte := [0x8C, 0xA1, 0x89, 0x0D, 0xBF, 0xE6, 0x42, 0x68, 0x41, 0x99, 0x2D, 0x0F, 0xB0, 0x54, 0xBB, 0x16]

/-- The S-box table, one row for each high nibble. -/
def sboxRows : List (List Byte) :=
  [sboxRow0, sboxRow1, sboxRow2, sboxRow3, sboxRow4, sboxRow5, sboxRow6, sboxRow7] ++
  [sboxRow8, sboxRow9, sboxRowA, sboxRowB, sboxRowC, sboxRowD, sboxRowE, sboxRowF]

/-- SBOX, row = high nibble, column = low nibble. -/
def sbox (b : Byte) : Byte := (sboxRows.getD (b.toNat / 16) []).getD (b.toNat % 16) 0

/-- Byte by byte exclusive or of two blocks. -/
def xorBlock (a b : List Byte) : List Byte := List.zipWith (fun x y => x ^^^ y) a b

/-- `2*a` in GF(2^8) modulo x^8 + x^4 + x^3 + x + 1. -/
def xtime (a : Byte) : Byte := (a <<< 1) ^^^ (if a.getLsbD 7 then 0x1B else 0)

/-- `3*a` = `2*a` xor a. -/
def xtime3 (a : Byte) : Byte := xtime a ^^^ a

/-- ShiftRows: s'[4c + r] = s[4((c + r) mod 4) + r]. -/
def shiftRows (s : List Byte) : List Byte :=
  [0, 5, 10, 15, 4, 9, 14, 3, 8, 13, 2, 7, 12, 1, 6, 11].map (fun i => s.getD i 0)

/-- MixColumns, column by column. -/
def mixColumns : List Byte → List Byte
  | a0 :: a1 :: a2 :: a3 :: rest =>
    (xtime a0 ^^^ xtime3 a1 ^^^ a2 ^^^ a3) ::
    (a0 ^^^ xtime a1 ^^^ xtime3 a2 ^^^ a3) ::
    (a0 ^^^ a1 ^^^ xtime a2 ^^^ xtime3 a3) ::
    (xtime3 a0 ^^^ a1 ^^^ a2 ^^^ xtime a3) :: mixColumns rest
  | _ => []

/-- The next round key from the one before: four words of KeyExpansion, the first through RotWord, SubWord and the round
constant. -/
def nextRoundKey (rcon : Byte) (rk : List Byte) : List Byte :=
  let w (i : Nat) : List Byte := (rk.drop (4 * i)).take 4
  let at3 (j : Nat) : Byte := sbox ((w 3).getD j 0)
  let w0 := xorBlock (w 0) [at3 1 ^^^ rcon, at3 2, at3 3, at3 0]
  let w1 := xorBlock (w 1) w0
  let w2 := xorBlock (w 2) w1
  let w3 := xorBlock (w 3) w2
  w0 ++ w1 ++ w2 ++ w3

/-- Rcon[1..10]. -/
def rcons : List Byte := [0x01, 0x02, 0x04, 0x08, 0x10, 0x20, 0x40, 0x80, 0x1B, 0x36]

/-- The rounds that the list of round constants names, from the round key and state before them. The last round has no
MixColumns. -/
def aesRounds : List Byte → List Byte → List Byte → List Byte
  | [], _, s => s
  | [rcon], rk, s => xorBlock (shiftRows (s.map sbox)) (nextRoundKey rcon rk)
  | rcon :: rcons, rk, s =>
    let rk' := nextRoundKey rcon rk
    aesRounds rcons rk' (xorBlock (mixColumns (shiftRows (s.map sbox))) rk')

/-- AES(K, X), the AES-128 encryption of a 16-byte block under a 16-byte key (section 2.2). -/
def aes (key x : List Byte) : List Byte := aesRounds rcons key (xorBlock x key)

/-- A 128-bit left shift by one, byte 0 the most significant. -/
def shiftLeftOne : List Byte → List Byte
  | [] => []
  | [b] => [b <<< 1]
  | b :: c :: rest => ((b <<< 1) ||| (c >>> 7)) :: shiftLeftOne (c :: rest)

/-- dbl(X), doubling in GF(2^128) (section 2.1). -/
def dbl (x : List Byte) : List Byte :=
  if (x.getD 0 0).getLsbD 7 then
    xorBlock (shiftLeftOne x) (List.replicate 15 0 ++ [0x87])
  else
    shiftLeftOne x

/-- The last block of a message, a whole one xor K1, or one padded with 0x80 0x00 ... xor K2. -/
def cmacLast (k1 k2 m : List Byte) : List Byte :=
  if m.length = 16 then
    xorBlock m k1
  else
    xorBlock (m ++ 0x80 :: List.replicate (15 - m.length) 0) k2

/-- The chaining X = AES(K, X xor M_i) over the blocks of a message; the first argument bounds the number of blocks that
are not the last. -/
def cmacChain (key k1 k2 : List Byte) : Nat → List Byte → List Byte → List Byte
  | 0, x, m => aes key (xorBlock x (cmacLast k1 k2 m))
  | fuel + 1, x, m =>
    if m.length ≤ 16 then
      aes key (xorBlock x (cmacLast k1 k2 m))
    else
      cmacChain key k1 k2 fuel (aes key (xorBlock x (m.take 16))) (m.drop 16)

/-- CMAC(K, M), AES-CMAC of RFC 4493 (section 2.1): the tag the engine answers (R181; log 3: DESIGN CHOICE between the
two forms R181 allows). -/
def cmac (key msg : List Byte) : List Byte :=
  let k1 := dbl (aes key (List.replicate 16 0))
  let k2 := dbl k1
  cmacChain key k1 k2 (msg.length / 16) (List.replicate 16 0) msg

end Sys2Proof.Machine
end

