-- ==== Sys2Proof/Machine/Flags.lean ====
section
/-! DEFINITION. The flag computations: the frame-control decoder, and the packed registers of the read port. -/

namespace Sys2Proof.Machine

/-- FCTRL_DECODE(b, d), `41_frame_control.md` R105: the flag a direction does not expose reads 0 (R107). -/
def fctrlDecode (b : Byte) (d : Direction) : FrameControl :=
  match d with
  | .uplink =>
    { fctrl := b, adr := b.getLsbD 7, adrackreq := b.getLsbD 6, ack := b.getLsbD 5, fpending := false
      rfu := b.getLsbD 4, foptslen := b.extractLsb' 0 4 }
  | .downlink =>
    { fctrl := b, adr := b.getLsbD 7, adrackreq := false, ack := b.getLsbD 5, fpending := b.getLsbD 4
      rfu := b.getLsbD 6, foptslen := b.extractLsb' 0 4 }

/-- FCTRL_ENCODE, R108: the stored raw byte, never rebuilt from the flags. -/
def fctrlEncode (fc : FrameControl) : Byte := fc.fctrl

/-- Two frame-control values are equal iff their raw bytes are (R109). -/
def FrameControl.same (a b : FrameControl) : Bool := a.fctrl == b.fctrl

/-- One bit at a place of an 8-bit register. -/
def flagAt (place : Nat) (f : Bool) : BitVec 8 := (if f then 1#8 else 0#8) <<< place

/-- PARSED, computed from VARIANT (`10_state.md` R18). -/
def State.parsed (s : State) : Bool := decide (s.variant ≠ .noVariant)

/-- Register STATUS (R18): BUSY, PARSED, MICDONE, MICOK, OVF from bit 0 up, bits 7:5 zero. -/
def State.status (s : State) : BitVec 8 :=
  flagAt 0 s.busy ||| flagAt 1 s.parsed ||| flagAt 2 s.micdone ||| flagAt 3 s.micok ||| flagAt 4 s.ovf

/-- The read-port register ERR (R19): ERR in bits 2:0, bit 3 zero, ERRSUB in bits 7:4. -/
def State.errReg (s : State) : BitVec 8 := s.errsub ++ (0#1 ++ s.err.code)

/-- The read-port register FCFLAGS (R24): ADR, ADRACKREQ, ACK, FPENDING, RFU from bit 0 up. -/
def Results.fcflags (r : Results) : BitVec 8 :=
  flagAt 0 r.adr ||| flagAt 1 r.adrackreq ||| flagAt 2 r.ack ||| flagAt 3 r.fpending ||| flagAt 4 r.rfu

end Sys2Proof.Machine
end

