-- ==== Sys2Proof/Machine/FrameControl.lean ====
section
/-! DEFINITION. The frame-control decoder as an operation on the registers (`41_frame_control.md`). -/

namespace Sys2Proof.Machine

/-- The seven registers the frame-control decoder writes, and nothing else (R105). -/
def Results.withFrameControl (r : Results) (fc : FrameControl) : Results :=
  { r with
    fctrl := fctrlEncode fc
    adr := fc.adr
    adrackreq := fc.adrackreq
    ack := fc.ack
    fpending := fc.fpending
    rfu := fc.rfu
    foptslen := fc.foptslen }

/-- FCTRL_UP, the frame-control byte of an uplink (R63, R105): internal, invoked by the header unpacker (R115). -/
def execFctrlUp (adr adrackreq ack rfu : Bool) (foptslen : BitVec 4) (s : State) :
    Host.Outcome State Fault Refusal :=
  .next { s with
    results := s.results.withFrameControl (fctrlDecode (fctrlByte adr adrackreq ack rfu foptslen) .uplink) }

/-- FCTRL_DOWN, the frame-control byte of a downlink (R64, R105): internal, invoked by the header unpacker (R115). -/
def execFctrlDown (adr rfu ack fpending : Bool) (foptslen : BitVec 4) (s : State) :
    Host.Outcome State Fault Refusal :=
  .next { s with
    results := s.results.withFrameControl (fctrlDecode (fctrlByte adr rfu ack fpending foptslen) .downlink) }

end Sys2Proof.Machine
end

