-- ==== Sys2Proof/Machine/FrameHeader.lean ====
section
/-! DEFINITION. The frame-header variable-length unpacker and its inverse (`42_frame_header.md`). -/

namespace Sys2Proof.Machine

/-- FHDR_DECODE(mac, M, d), R115 with the checks of R116 and R117; M is the length of mac. -/
def fhdrDecode (mac : List Byte) (d : Direction) : Except Raise FrameHeader :=
  if mac.length < 5 then
    .error { kind := .truncatedFrame, sub := 4 }
  else
    let fc := fctrlDecode (byteAt mac 4) d
    let n := fc.foptslen.toNat
    if mac.length < 7 + n then
      .error { kind := .truncatedFrame, sub := 5 }
    else
      .ok {
        devaddr := BitVec.ofNat 32 (le (sub mac 0 4))
        fc := fc
        fcnt := BitVec.ofNat 16 (le (sub mac 5 2))
        fopts := sub mac 7 n
        fhdrlen := BitVec.ofNat 5 (7 + n) }

/-- FHDR_ENCODE(devaddr, fctrl, fcnt, fopts), R120: DevAddr, the raw frame-control byte, FCnt, FOpts, in that order. -/
def fhdrEncode (devaddr : BitVec 32) (fctrl : Byte) (fcnt : BitVec 16) (fopts : List Byte) : List Byte :=
  lebytes 4 devaddr.toNat ++ [fctrl] ++ lebytes 2 fcnt.toNat ++ fopts

/-- The registers a decoded header is written to (R115): DEVADDR, the seven frame-control registers, FCNT, FOPTS (the
rest of it 0x00) and FHDRLEN. -/
def Results.withHeader (r : Results) (h : FrameHeader) : Results :=
  { r.withFrameControl h.fc with
    devaddr := h.devaddr
    fcnt := h.fcnt
    fopts := fit 15 h.fopts
    fhdrlen := h.fhdrlen }

end Sys2Proof.Machine
end

