-- ==== Sys2Proof/Machine/Mic.lean ====
section
/-! DEFINITION. The MIC-input assembler, CALCMIC, VERIFY and the engine's completion step (`46_mic_assembler.md`). -/

namespace Sys2Proof.Machine

/-- msg of a join-request from its fields (R161). -/
def State.joinRequestMsg (s : State) : List Byte :=
  [s.results.mhdr] ++ lebytes 8 s.results.appeui.toNat ++ lebytes 8 s.results.deveui.toNat ++
    s.results.devnonce.toList

/-- msg of a join-accept from its fields; an absent CFList gives no bytes (R162). -/
def State.joinAcceptMsg (s : State) : List Byte :=
  [s.results.mhdr] ++ s.results.appnonce.toList ++ s.results.netid.toList ++ lebytes 4 s.results.devaddr.toNat ++
    [s.results.dlsettings, s.results.rxdelay] ++ (if s.results.cflistp then s.results.cflist.toList else [])

/-- msg of a data message from its fields (R163). -/
def State.dataMsg (s : State) : List Byte :=
  [s.results.mhdr] ++
    fhdrEncode s.results.devaddr s.results.fctrl s.results.fcnt
      (s.results.fopts.toList.take s.results.foptslen.toNat) ++
    (if s.results.fportp then [s.results.fport] else []) ++ s.frmPayload

/-- The field form of msg for the held variant (R161 to R163, R176); nothing when none is held. -/
def State.fieldMsg (s : State) : List Byte :=
  match s.variant with
  | .joinRequest => s.joinRequestMsg
  | .joinAccept => s.joinAcceptMsg
  | .unconfirmedDataUp => s.dataMsg
  | .unconfirmedDataDown => s.dataMsg
  | .confirmedDataUp => s.dataMsg
  | .confirmedDataDown => s.dataMsg
  | .noVariant => []

/-- The B0 block of a data message (R164). The last byte is len(msg) = LEN - 4 (R165). -/
def State.b0 (s : State) : List Byte :=
  [0x49, 0x00, 0x00, 0x00, 0x00, s.results.dir.toByte] ++ lebytes 4 s.results.devaddr.toNat ++
    lebytes 4 s.results.fcnt.toNat ++ [0x00, BitVec.ofNat 8 (s.len.toNat - 4)]

/-- MICIN, the byte sequence handed to the engine (R161 to R163, `30_encoding.md` R70). -/
def State.micIn (s : State) : List Byte :=
  match s.variant with
  | .joinRequest => s.fieldMsg
  | .joinAccept => s.fieldMsg
  | .unconfirmedDataUp => s.b0 ++ s.fieldMsg
  | .unconfirmedDataDown => s.b0 ++ s.fieldMsg
  | .confirmedDataUp => s.b0 ++ s.fieldMsg
  | .confirmedDataDown => s.b0 ++ s.fieldMsg
  | .noVariant => []

/-- Sending a request to the engine: PEND <- (kind, K, MICIN), BUSY <- 1 (R166, R169, `47_cmac_interface.md` R180). -/
def State.request (s : State) (kind : MicKind) (key : List Byte) : State :=
  { s with pend := some { kind := kind, key := key, msg := s.micIn }, busy := true }

/-- CALCMIC K, the issue step (R166); Unimplemented when no variant is held (R167). -/
def execCalcmic (_ignored : Byte) (key : List Byte) (s : State) : Host.Outcome State Fault Refusal :=
  if s.variant = .noVariant then
    .next (s.clearMic.raise { kind := .unimplemented, sub := 0 })
  else
    .next (({ s.clearMic with err := .noError, errsub := 0 } : State).request .calc key)

/-- VERIFY K, the issue step (R169); with no variant held it answers false and raises nothing (R170). -/
def execVerify (_ignored : Byte) (key : List Byte) (s : State) : Host.Outcome State Fault Refusal :=
  if s.variant = .noVariant then
    .next s.clearMic
  else
    .next (s.clearMic.request .verify key)

/-- The completion step on the engine's response tag (R168, R171). MICOK is set by a VERIFY only, when the first four tag
bytes equal the stored MIC. -/
def State.completeMic (s : State) (kind : MicKind) (tag : List Byte) : State :=
  { s with
    cmic := fit 4 tag
    micdone := true
    micok := match kind with
      | .calc => false
      | .verify => decide (fit 4 tag = s.results.mic)
    pend := none
    busy := false }

/-- The engine's move (`47_cmac_interface.md` R182): the response to the outstanding request, tag = CMAC(PEND.key,
PEND.msg) (R181). With nothing outstanding a response is discarded (`70_reset_and_hazards.md` R236) and the block stays
idle. -/
def respond (s : State) : Host.Outcome State Fault Refusal :=
  if s.busy then
    match s.pend with
    | some p => .next (s.completeMic p.kind (cmac p.key p.msg))
    | none => .fault .busyWithoutRequest
  else
    .next s

end Sys2Proof.Machine
end

