-- ==== Sys2Proof/Machine/Data.lean ====
section
/-! DEFINITION. The four data-message variants (`45_data_messages.md`). -/

namespace Sys2Proof.Machine

/-- DATA_DECODE(mac, M, d), R150: the header, then FPort and FRMPayload, present iff M > FHDRLEN (R152). -/
def dataDecode (mac : List Byte) (d : Direction) : Except Raise DataFields :=
  match fhdrDecode mac d with
  | .error e => .error e
  | .ok h =>
    let n := h.fc.foptslen.toNat
    if mac.length > 7 + n then
      let frmlen := mac.length - 8 - n
      .ok {
        dir := d
        header := h
        fportp := true
        fport := byteAt mac (7 + n)
        frmoff := if frmlen > 0 then BitVec.ofNat 9 (9 + n) else 0
        frmlen := BitVec.ofNat 9 frmlen }
    else
      .ok { dir := d, header := h, fportp := false, fport := 0, frmoff := 0, frmlen := 0 }

/-- The registers of a data message (R150). -/
def Results.withData (r : Results) (v : DataFields) : Results :=
  { r.withHeader v.header with
    dir := v.dir
    fportp := v.fportp
    fport := v.fport
    frmoff := v.frmoff
    frmlen := v.frmlen }

/-- PARSE's branch for the data type codes on the loaded frame (R125, R150). -/
def State.dataBranch (s : State) (mhdr : Byte) (v : Variant) (d : Direction) : State :=
  match dataDecode s.mac d with
  | .error e => s.raise e
  | .ok f => s.commit mhdr v (fun r => r.withData f)

/-- UNCONFIRMED_DATA_UP, the dispatch of type code 2, direction 0 (`30_encoding.md` R62, R151). -/
def execUnconfirmedDataUp (low : BitVec 5) (s : State) : Host.Outcome State Fault Refusal :=
  .next (s.dataBranch (mhdrByte 2 low) .unconfirmedDataUp .uplink)

/-- UNCONFIRMED_DATA_DOWN, the dispatch of type code 3, direction 1 (R62, R151). -/
def execUnconfirmedDataDown (low : BitVec 5) (s : State) : Host.Outcome State Fault Refusal :=
  .next (s.dataBranch (mhdrByte 3 low) .unconfirmedDataDown .downlink)

/-- CONFIRMED_DATA_UP, the dispatch of type code 4, direction 0 (R62, R151). -/
def execConfirmedDataUp (low : BitVec 5) (s : State) : Host.Outcome State Fault Refusal :=
  .next (s.dataBranch (mhdrByte 4 low) .confirmedDataUp .uplink)

/-- CONFIRMED_DATA_DOWN, the dispatch of type code 5, direction 1 (R62, R151). -/
def execConfirmedDataDown (low : BitVec 5) (s : State) : Host.Outcome State Fault Refusal :=
  .next (s.dataBranch (mhdrByte 5 low) .confirmedDataDown .downlink)

end Sys2Proof.Machine
end

