-- ==== Sys2Proof/Machine/Join.lean ====
section
/-! DEFINITION. The JoinRequest and JoinAccept variants (`44_join_messages.md`). -/

namespace Sys2Proof.Machine

/-- JOINREQ_DECODE(mac, M), R140, with the length check of R141. -/
def joinreqDecode (mac : List Byte) : Except Raise JoinRequestFields :=
  if mac.length ≠ 18 then
    .error { kind := .truncatedFrame, sub := 2 }
  else
    .ok {
      appeui := BitVec.ofNat 64 (le (sub mac 0 8))
      deveui := BitVec.ofNat 64 (le (sub mac 8 8))
      devnonce := fit 2 (sub mac 16 2) }

/-- The registers of a join-request (R140). -/
def Results.withJoinRequest (r : Results) (v : JoinRequestFields) : Results :=
  { r with appeui := v.appeui, deveui := v.deveui, devnonce := v.devnonce }

/-- JOINACC_DECODE(mac, M), R142, with the length check of R143; CFList is present iff M = 28 (R144). The bytes are
taken as they stand: nothing is decrypted (R145). -/
def joinaccDecode (mac : List Byte) : Except Raise JoinAcceptFields :=
  if mac.length ≠ 12 ∧ mac.length ≠ 28 then
    .error { kind := .truncatedFrame, sub := 3 }
  else
    .ok {
      appnonce := fit 3 (sub mac 0 3)
      netid := fit 3 (sub mac 3 3)
      devaddr := BitVec.ofNat 32 (le (sub mac 6 4))
      dlsettings := byteAt mac 10
      rxdelay := byteAt mac 11
      cflistp := decide (mac.length = 28)
      cflist := if mac.length = 28 then fit 16 (sub mac 12 16) else Vector.replicate 16 0 }

/-- The registers of a join-accept (R142). -/
def Results.withJoinAccept (r : Results) (v : JoinAcceptFields) : Results :=
  { r with
    appnonce := v.appnonce
    netid := v.netid
    devaddr := v.devaddr
    dlsettings := v.dlsettings
    rxdelay := v.rxdelay
    cflistp := v.cflistp
    cflist := v.cflist }

/-- PARSE's branch for type code 0 on the loaded frame: decode the MacPayload, then commit or take the error (R125, R140). -/
def State.joinRequestBranch (s : State) (mhdr : Byte) : State :=
  match joinreqDecode s.mac with
  | .error e => s.raise e
  | .ok v => s.commit mhdr .joinRequest (fun r => r.withJoinRequest v)

/-- PARSE's branch for type code 1 on the loaded frame (R125, R142). -/
def State.joinAcceptBranch (s : State) (mhdr : Byte) : State :=
  match joinaccDecode s.mac with
  | .error e => s.raise e
  | .ok v => s.commit mhdr .joinAccept (fun r => r.withJoinAccept v)

/-- JOIN_REQUEST, the dispatch of type code 0 (`30_encoding.md` R62, `43_parse_dispatch.md` R130). -/
def execJoinRequest (low : BitVec 5) (s : State) : Host.Outcome State Fault Refusal :=
  .next (s.joinRequestBranch (mhdrByte 0 low))

/-- JOIN_ACCEPT, the dispatch of type code 1 (R62, R130). -/
def execJoinAccept (low : BitVec 5) (s : State) : Host.Outcome State Fault Refusal :=
  .next (s.joinAcceptBranch (mhdrByte 1 low))

end Sys2Proof.Machine
end

