-- ==== Sys2Proof/Machine/Parse.lean ====
section
/-! DEFINITION. PARSE: the frame split and the message-type dispatcher (`43_parse_dispatch.md`). -/

namespace Sys2Proof.Machine

/-- UnsupportedType(t), R131 and R208: the MacPayload is not examined. -/
def State.unsupported (s : State) (t : BitVec 4) : State := s.raise { kind := .unsupportedType, sub := t }

/-- UNSUPPORTED_TYPE_6, the dispatch of type code 6 (R131). -/
def execUnsupportedType6 (_low : BitVec 5) (s : State) : Host.Outcome State Fault Refusal := .next (s.unsupported 6)

/-- UNSUPPORTED_TYPE_7, the dispatch of type code 7 (R131). -/
def execUnsupportedType7 (_low : BitVec 5) (s : State) : Host.Outcome State Fault Refusal := .next (s.unsupported 7)

/-- The eight-way branch of R125 and R130 on the type code of the MHdr byte. -/
def State.dispatch (s : State) (mhdr : Byte) : State :=
  match (mtypeOf mhdr).toNat with
  | 0 => s.joinRequestBranch mhdr
  | 1 => s.joinAcceptBranch mhdr
  | 2 => s.dataBranch mhdr .unconfirmedDataUp .uplink
  | 3 => s.dataBranch mhdr .unconfirmedDataDown .downlink
  | 4 => s.dataBranch mhdr .confirmedDataUp .uplink
  | 5 => s.dataBranch mhdr .confirmedDataDown .downlink
  | 6 => s.unsupported 6
  | _ => s.unsupported 7

/-- What PARSE does to the state, R125: INVALIDATE(), then Overflow (R126), then the length check (R127), then the
dispatch on FB[0] (R128 to R131). -/
def State.parse (s : State) : State :=
  let s0 := s.invalidate
  if s.ovf then
    s0.raise { kind := .overflow, sub := 0 }
  else if s.len.toNat < 5 then
    s0.raise { kind := .truncatedFrame, sub := 1 }
  else
    s0.dispatch (s.fb.read 0)

/-- PARSE, R125. -/
def execParse (_ignored : Byte) (s : State) : Host.Outcome State Fault Refusal := .next s.parse

end Sys2Proof.Machine
end

