-- ==== Sys2Proof/Machine/Serialize.lean ====
section
/-! DEFINITION. SERIALIZE (`48_serialize.md`). -/

namespace Sys2Proof.Machine

/-- SER(), R196: the field form of msg followed by the stored MIC. -/
def State.ser (s : State) : List Byte := s.fieldMsg ++ s.results.mic.toList

/-- SERIALIZE, R195; with no variant held the output is empty (R198). -/
def execSerialize (_ignored : Byte) (s : State) : Host.Outcome State Fault Refusal :=
  if s.variant = .noVariant then
    .next { s with olen := 0 }
  else
    .next { s with ob := s.ob.writeBytes 0 s.ser, olen := BitVec.ofNat 9 s.ser.length }

end Sys2Proof.Machine
end

