-- ==== Sys2Proof/Machine/Dispatch.lean ====
section
/-! DEFINITION. One arm for each constructor of Instr. -/

namespace Sys2Proof.Machine

def exec (i : Instr) (s : State) : Host.Outcome State Fault Refusal :=
  match i with
  | .nop d => Sys2Proof.Machine.execNop d s
  | .clear d => Sys2Proof.Machine.execClear d s
  | .push d => Sys2Proof.Machine.execPush d s
  | .parse d => Sys2Proof.Machine.execParse d s
  | .calcmic d key => Sys2Proof.Machine.execCalcmic d key s
  | .verify d key => Sys2Proof.Machine.execVerify d key s
  | .serialize d => Sys2Proof.Machine.execSerialize d s
  | .reserved7 d => Sys2Proof.Machine.execReserved7 d s
  | .reserved8 d => Sys2Proof.Machine.execReserved8 d s
  | .reserved9 d => Sys2Proof.Machine.execReserved9 d s
  | .reservedA d => Sys2Proof.Machine.execReservedA d s
  | .reservedB d => Sys2Proof.Machine.execReservedB d s
  | .reservedC d => Sys2Proof.Machine.execReservedC d s
  | .reservedD d => Sys2Proof.Machine.execReservedD d s
  | .reservedE d => Sys2Proof.Machine.execReservedE d s
  | .reservedF d => Sys2Proof.Machine.execReservedF d s
  | .joinRequest low => Sys2Proof.Machine.execJoinRequest low s
  | .joinAccept low => Sys2Proof.Machine.execJoinAccept low s
  | .unconfirmedDataUp low => Sys2Proof.Machine.execUnconfirmedDataUp low s
  | .unconfirmedDataDown low => Sys2Proof.Machine.execUnconfirmedDataDown low s
  | .confirmedDataUp low => Sys2Proof.Machine.execConfirmedDataUp low s
  | .confirmedDataDown low => Sys2Proof.Machine.execConfirmedDataDown low s
  | .unsupportedType6 low => Sys2Proof.Machine.execUnsupportedType6 low s
  | .unsupportedType7 low => Sys2Proof.Machine.execUnsupportedType7 low s
  | .fctrlUp a q k r n => Sys2Proof.Machine.execFctrlUp a q k r n s
  | .fctrlDown a r k p n => Sys2Proof.Machine.execFctrlDown a r k p n s

end Sys2Proof.Machine
end

