-- ==== Sys2Proof/Machine/HostPort.lean ====
section
/-! DEFINITION. The host's register read port and reset (`10_state.md` R24, `70_reset_and_hazards.md` R235). -/

namespace Sys2Proof.Machine

/-- What a register read finds: a value, or the unspecified byte of R24. -/
inductive PortValue where
  | value (v : BitVec 64)
  | unspecified
  deriving DecidableEq, Repr

/-- A scalar register's unsigned value. -/
def PortValue.scalar (n : Nat) : PortValue := .value (BitVec.ofNat 64 n)

/-- A byte-array register's element, 0x00 beyond the size. -/
def PortValue.element (bs : List Byte) (idx : Nat) : PortValue := .scalar (bs.getD idx 0).toNat

/-- A 1-bit register. -/
def PortValue.flag (f : Bool) : PortValue := .scalar f.toNat

/-- A byte of FB or OB: unspecified at and above the valid length. -/
def PortValue.buffer (m : Memory) (valid idx : Nat) : PortValue :=
  if idx < valid then .scalar (m.read idx).toNat else .unspecified

/-- The register map of R24. Numbers 0x21 to 0x3F are unassigned and read 0. -/
def State.port (s : State) (no : BitVec 6) (idx : Nat) : PortValue :=
  match no.toNat with
  | 0x00 => .scalar s.status.toNat
  | 0x01 => .scalar s.errReg.toNat
  | 0x02 => .scalar s.len.toNat
  | 0x03 => .scalar s.variant.tag.toNat
  | 0x04 => .scalar s.results.mhdr.toNat
  | 0x05 => .scalar s.results.mtype.toNat
  | 0x06 => .scalar s.results.maclen.toNat
  | 0x07 => .element s.results.mic.toList idx
  | 0x08 => .scalar s.results.dir.toByte.toNat
  | 0x09 => .scalar s.results.devaddr.toNat
  | 0x0A => .scalar s.results.fctrl.toNat
  | 0x0B => .scalar s.results.fcflags.toNat
  | 0x0C => .scalar s.results.foptslen.toNat
  | 0x0D => .scalar s.results.fcnt.toNat
  | 0x0E => .element s.results.fopts.toList idx
  | 0x0F => .scalar s.results.fhdrlen.toNat
  | 0x10 => .flag s.results.fportp
  | 0x11 => .scalar s.results.fport.toNat
  | 0x12 => .scalar s.results.frmoff.toNat
  | 0x13 => .scalar s.results.frmlen.toNat
  | 0x14 => .scalar s.results.appeui.toNat
  | 0x15 => .scalar s.results.deveui.toNat
  | 0x16 => .element s.results.devnonce.toList idx
  | 0x17 => .element s.results.appnonce.toList idx
  | 0x18 => .element s.results.netid.toList idx
  | 0x19 => .scalar s.results.dlsettings.toNat
  | 0x1A => .scalar s.results.rxdelay.toNat
  | 0x1B => .flag s.results.cflistp
  | 0x1C => .element s.results.cflist.toList idx
  | 0x1D => .element s.cmic.toList idx
  | 0x1E => .scalar s.olen.toNat
  | 0x1F => .buffer s.ob s.olen.toNat idx
  | 0x20 => .buffer s.fb s.len.toNat idx
  | _ => .scalar 0

/-- The host's read: the answer goes to the model's rdData and changes nothing of the block (R24, R49). The unspecified
byte is a free value, a new draw each time (log 6). -/
def State.readPort (s : State) (no : BitVec 6) (idx : Nat) : State :=
  match s.port no idx with
  | .value v => { s with rdData := v }
  | .unspecified => { s with rdData := (Config.freeByte s.draws).setWidth 64, draws := s.draws + 1 }

/-- Reset, at any time (R235, R236): every piece of the block's state takes its reset value and an outstanding request is
abandoned. The parameter and the model's own fields stay (log 8). -/
def State.applyReset (s : State) : State :=
  { State.reset with config := s.config, moves := s.moves, draws := s.draws, rdData := s.rdData }

end Sys2Proof.Machine
end

