-- ==== Sys2Proof/Machine/Accept.lean ====
section
/-! DEFINITION. Accepting a command, and placing an instruction where the next step takes it from. -/

namespace Sys2Proof.Machine

/-- The block accepts the host's command and executes it as one atomic step (`40_host_commands.md` R90). -/
def State.accept (s : State) (cw : CmdWord) (key : Key) : Host.Outcome State Fault Refusal :=
  exec (decodeCommand cw key) s

/-- The host presents this command next, to a block that is ready (R90: BUSY = 0). -/
def State.present (s : State) (cw : CmdWord) : State :=
  { s with moves := .command cw zeroKey :: s.moves, busy := false, pend := none }

/-- The shortest frame the variant of an MHdr byte accepts (`43_parse_dispatch.md` R135); the five bytes of the split
where there is no variant. -/
def shortestFrame (mhdr : Byte) : BitVec 9 :=
  match (mtypeOf mhdr).toNat with
  | 0 => 23
  | 1 => 17
  | 2 => 12
  | 3 => 12
  | 4 => 12
  | 5 => 12
  | 6 => 5
  | _ => 5

/-- A frame whose leading byte is this MHdr and whose other bytes are 0x00 is loaded, and the host presents PARSE next:
so the dispatcher runs the MHdr byte's row (R125, R130; log 11). -/
def State.presentFrame (s : State) (mhdr : Byte) : State :=
  { s.present 0x300 with fb := Memory.write [] 0 mhdr, len := shortestFrame mhdr, ovf := false }

end Sys2Proof.Machine
end

