-- ==== Sys2Proof/Machine/Step.lean ====
section
/-! DEFINITION. One step: the next move of the host or the engine, and what the block does on it. -/

namespace Sys2Proof.Machine

/-- One step (`40_host_commands.md` R90, R95; `47_cmac_interface.md` R182). A command is accepted only when BUSY = 0;
while BUSY = 1 the channel is not ready, the command waits, and the engine's response, which alone lifts the hold, is
taken (log 2). Reads and reset happen at any time. With no move left the engine answers what is outstanding, and
otherwise the block is idle (log 12). -/
def step (s : State) : Host.Outcome State Fault Refusal :=
  match s.moves with
  | [] => respond s
  | .command cw key :: rest => if s.busy then respond s else State.accept { s with moves := rest } cw key
  | .response :: rest => respond { s with moves := rest }
  | .read no idx :: rest => .next (State.readPort { s with moves := rest } no idx)
  | .reset :: rest => .next (State.applyReset { s with moves := rest })

/-- The state whose next step runs the instruction of the opcode table with these bits: a command word is the host's next
command, an MHdr byte is the leading byte of the loaded frame with PARSE the next command (log 11). -/
def State.withFetchWord (s : State) (nbits w : Nat) : State :=
  if nbits ≤ 8 then s.presentFrame (BitVec.ofNat 8 w) else s.present (BitVec.ofNat 12 w)

end Sys2Proof.Machine
end

