-- ==== Sys2Proof/Safety.lean ====
section
/-! DEFINITION. The terms the claims are stated in: what is left unchanged, what an error leaves, which frames fit, and
the invariant of the block. -/

namespace Sys2Proof.Machine

/-- FB (every byte), LEN and OVF are unchanged. -/
def SameFrameStore (s t : State) : Prop := (∀ a, t.fb.read a = s.fb.read a) ∧ t.len = s.len ∧ t.ovf = s.ovf

/-- VARIANT and every parse-result register are unchanged. -/
def SameParse (s t : State) : Prop := t.variant = s.variant ∧ t.results = s.results

/-- ERR and ERRSUB are unchanged. -/
def SameError (s t : State) : Prop := t.err = s.err ∧ t.errsub = s.errsub

/-- CMIC, MICDONE and MICOK are unchanged. -/
def SameMic (s t : State) : Prop := t.cmic = s.cmic ∧ t.micdone = s.micdone ∧ t.micok = s.micok

/-- OB (every byte) is unchanged. -/
def SameOutputBytes (s t : State) : Prop := ∀ a, t.ob.read a = s.ob.read a

/-- BUSY and PEND are unchanged. -/
def SameControl (s t : State) : Prop := t.busy = s.busy ∧ t.pend = s.pend

/-- The parameter and the model's own fields are unchanged. -/
def SameModel (s t : State) : Prop :=
  t.config = s.config ∧ t.moves = s.moves ∧ t.draws = s.draws ∧ t.rdData = s.rdData

/-- CMIC, MICDONE and MICOK are cleared. -/
def MicCleared (t : State) : Prop := t.cmic.toList = [0x00, 0x00, 0x00, 0x00] ∧ t.micdone = false ∧ t.micok = false

/-- Everything INVALIDATE() sets has the value it sets (`10_state.md` R29). -/
def Invalidated (t : State) : Prop :=
  t.variant = .noVariant ∧ t.results = Results.reset ∧ t.err = .noError ∧ t.errsub = 0 ∧ MicCleared t ∧ t.olen = 0

/-- What a PARSE never writes: FB, LEN, OVF, OB's bytes, BUSY, PEND and the model's own fields (`43_parse_dispatch.md`
R125). -/
def ParseFrame (s t : State) : Prop :=
  SameFrameStore s t ∧ SameOutputBytes s t ∧ SameControl s t ∧ SameModel s t

/-- The failure commit of PARSE (R133, `60_exceptions.md` R214): no variant, every parse-result register at its reset
value, the MIC results and OLEN cleared, ERR and ERRSUB as raised, nothing else changed. -/
def ParseFailed (s t : State) (e : ErrorKind) (sub : BitVec 4) : Prop :=
  t.variant = .noVariant ∧ t.results = Results.reset ∧ t.err = e ∧ t.errsub = sub ∧ MicCleared t ∧ t.olen = 0 ∧
    ParseFrame s t

/-- The success commit of PARSE but for the parse-result registers (R132). -/
def ParseSucceeded (s t : State) (v : Variant) : Prop :=
  t.variant = v ∧ t.err = .noError ∧ t.errsub = 0 ∧ MicCleared t ∧ t.olen = 0 ∧ ParseFrame s t

/-- FOptsLen as the frame carries it, the low nibble of FB[5] (`30_encoding.md` R65, R76 b). -/
def State.wireFOptsLen (s : State) : Nat := (s.fb.read 5).toNat % 16

/-- The type code as the frame carries it, FB[0][7:5] (R76 a). -/
def State.wireType (s : State) : Nat := (s.fb.read 0).toNat / 32

/-- The frame lengths each variant accepts (`43_parse_dispatch.md` R135). -/
def FrameFits (s : State) : Prop :=
  (s.wireType = 0 ∧ s.len.toNat = 23) ∨
  (s.wireType = 1 ∧ (s.len.toNat = 17 ∨ s.len.toNat = 33)) ∨
  (2 ≤ s.wireType ∧ s.wireType ≤ 5 ∧ 12 + s.wireFOptsLen ≤ s.len.toNat)

/-- The pairs of ERR and ERRSUB the block can hold (`60_exceptions.md` R207). -/
def ErrorLegal : ErrorKind → Nat → Prop
  | .noError, sub => sub = 0
  | .unsupportedType, sub => sub = 6 ∨ sub = 7
  | .truncatedFrame, sub => 1 ≤ sub ∧ sub ≤ 5
  | .unimplemented, sub => sub = 0
  | .overflow, sub => sub = 0
  | .badCommand, sub => 7 ≤ sub ∧ sub ≤ 15

/-- The invariant of the block. A safe run is one all of whose states have it. -/
structure Inv (s : State) : Prop where
  /-- R4. -/
  capacity : s.config.ok = true
  /-- R11: 0 <= LEN <= PHY_MAX. -/
  lenBound : s.len.toNat ≤ s.config.phyMax
  /-- R11: OVF is set only when the buffer is full. -/
  overflowFull : s.ovf = true → s.len.toNat = s.config.phyMax
  /-- FB is canonical. -/
  frameForm : s.fb.wf = true
  /-- R11: the indices of FB are 0 to PHY_MAX - 1. -/
  frameInside : ∀ c ∈ s.fb, c.1 < s.config.phyMax
  /-- OB is canonical. -/
  outputForm : s.ob.wf = true
  /-- R21: the indices of OB are 0 to PHY_MAX - 1. -/
  outputInside : ∀ c ∈ s.ob, c.1 < s.config.phyMax
  /-- R27, R52, R136: a held variant and its results are what PARSE makes of the frame that FB holds now. -/
  heldIsParsed : s.variant ≠ .noVariant → s.parse.variant = s.variant ∧ s.parse.results = s.results
  /-- R25: with no variant held every parse-result register has its reset value. -/
  noneIsReset : s.variant = .noVariant → s.results = Results.reset
  /-- R21, R197: the output is empty, or it is the frame of the held variant. -/
  outputIsFrame : s.olen = 0 ∨
    (s.variant ≠ .noVariant ∧ s.olen = s.len ∧ ∀ i, i < s.len.toNat → s.ob.read i = s.fb.read i)
  /-- R207. -/
  errorLegal : ErrorLegal s.err s.errsub.toNat
  /-- R22: PEND is defined exactly while BUSY = 1. -/
  busyIffPending : s.busy = s.pend.isSome
  /-- R22, R53: the pending request is the held variant's MIC input under a 16-byte key. -/
  pendingRequest : ∀ p, s.pend = some p → s.variant ≠ .noVariant ∧ p.key.length = 16 ∧ p.msg = s.micIn
  /-- R240: while a request is outstanding no MIC result is shown. -/
  busyNoResult : s.busy = true → s.micdone = false
  /-- R20, R240: without a result CMIC and MICOK read zero. -/
  noResultCleared : s.micdone = false → s.cmic.toList = [0x00, 0x00, 0x00, 0x00] ∧ s.micok = false
  /-- R20: a result belongs to a held variant. -/
  resultHeld : s.micdone = true → s.variant ≠ .noVariant
  /-- R20, R171: MICOK = 1 means that the computed MIC equals the stored one. -/
  micOkEqual : s.micok = true → s.cmic = s.results.mic

end Sys2Proof.Machine
end

