-- ==== Sys2Proof/Certificates/Slice0/Obligations.lean ====
section
/-! DEFINITION. The statements about the block, one `def Obligations.<Name> : Prop` each; OBLIGATIONS.json lists them. -/

section

open Sys2Proof Sys2Proof.Machine

/-! ### Reset and the host commands -/

/-- R26: the reset value of every register the spec gives one, and STATUS and ERR read 0x00. (FB and OB contents are
unspecified there; the model's own fields are not stated.) -/
def Obligations.ResetValues : Prop :=
  State.reset.len = 0 ∧ State.reset.ovf = false ∧ State.reset.variant.tag = 7 ∧
  (let r := State.reset.results
   r.mhdr = 0 ∧ r.mtype = 0 ∧ r.maclen = 0 ∧ r.mic.toList = List.replicate 4 0 ∧
   r.dir.toByte = 0 ∧ r.adr = false ∧ r.adrackreq = false ∧ r.ack = false ∧ r.fpending = false ∧ r.rfu = false ∧
   r.devaddr = 0 ∧ r.fctrl = 0 ∧ r.foptslen = 0 ∧ r.fcnt = 0 ∧ r.fhdrlen = 0 ∧
   r.fopts.toList = List.replicate 15 0 ∧
   r.fportp = false ∧ r.fport = 0 ∧ r.frmoff = 0 ∧ r.frmlen = 0 ∧
   r.appeui = 0 ∧ r.deveui = 0 ∧ r.devnonce.toList = List.replicate 2 0 ∧
   r.appnonce.toList = List.replicate 3 0 ∧ r.netid.toList = List.replicate 3 0 ∧
   r.dlsettings = 0 ∧ r.rxdelay = 0 ∧ r.cflistp = false ∧ r.cflist.toList = List.replicate 16 0) ∧
  State.reset.err.code = 0 ∧ State.reset.errsub = 0 ∧
  State.reset.cmic.toList = List.replicate 4 0 ∧ State.reset.micdone = false ∧ State.reset.micok = false ∧
  State.reset.olen = 0 ∧ State.reset.busy = false ∧ State.reset.pend = none ∧
  State.reset.status = 0x00 ∧ State.reset.errReg = 0x00

/-- R91: NOP writes nothing, whatever its data bits. -/
def Obligations.NopChangesNothing : Prop :=
  ∀ (d : Byte) (s : State), exec (.nop d) s = .next s

/-- R92: CLEAR runs INVALIDATE(), empties the buffer and clears OVF; FB and OB contents, BUSY and PEND stay. On an idle
block the state is then the reset state but for the unreadable contents of FB and OB and the model's own fields. -/
def Obligations.ClearStartsNewFrame : Prop :=
  ∀ (d : Byte) (s : State), ∃ t, exec (.clear d) s = .next t ∧
    Invalidated t ∧ t.len = 0 ∧ t.ovf = false ∧
    (∀ a, t.fb.read a = s.fb.read a) ∧ SameOutputBytes s t ∧ SameControl s t ∧ SameModel s t ∧
    (s.busy = false → s.pend = none →
      t = { State.reset with
        fb := s.fb, ob := s.ob, config := s.config, moves := s.moves, draws := s.draws, rdData := s.rdData })

/-- R93: PUSH runs INVALIDATE(); with room it appends the byte at index LEN, else it drops it and sets OVF. -/
def Obligations.PushAppendsOrOverflows : Prop :=
  ∀ (b : Byte) (s : State), s.config.ok = true → s.fb.wf = true → ∃ t, exec (.push b) s = .next t ∧
    Invalidated t ∧ SameOutputBytes s t ∧ SameControl s t ∧ SameModel s t ∧
    (s.len.toNat < s.config.phyMax →
      t.fb.read s.len.toNat = b ∧ (∀ a, a ≠ s.len.toNat → t.fb.read a = s.fb.read a) ∧
      t.len.toNat = s.len.toNat + 1 ∧ t.ovf = s.ovf) ∧
    (s.config.phyMax ≤ s.len.toNat →
      t.ovf = true ∧ t.len = s.len ∧ (∀ a, t.fb.read a = s.fb.read a))

/-- R94, R212: a reserved command code writes BAD_COMMAND and its code, and nothing else. -/
def Obligations.ReservedCodesRecordBadCommand : Prop :=
  (∀ (d : Byte) (s : State),
    exec (.reserved7 d) s = .next { s with err := .badCommand, errsub := 0x7 } ∧
    exec (.reserved8 d) s = .next { s with err := .badCommand, errsub := 0x8 } ∧
    exec (.reserved9 d) s = .next { s with err := .badCommand, errsub := 0x9 } ∧
    exec (.reservedA d) s = .next { s with err := .badCommand, errsub := 0xA } ∧
    exec (.reservedB d) s = .next { s with err := .badCommand, errsub := 0xB } ∧
    exec (.reservedC d) s = .next { s with err := .badCommand, errsub := 0xC } ∧
    exec (.reservedD d) s = .next { s with err := .badCommand, errsub := 0xD } ∧
    exec (.reservedE d) s = .next { s with err := .badCommand, errsub := 0xE } ∧
    exec (.reservedF d) s = .next { s with err := .badCommand, errsub := 0xF }) ∧
  (∀ (cw : CmdWord) (key : Key) (s : State), 7 ≤ (cw.extractLsb' 8 4).toNat →
    exec (decodeCommand cw key) s = .next { s with err := .badCommand, errsub := cw.extractLsb' 8 4 }) ∧
  ErrorKind.badCommand.code = 5

/-- R71, R74 g: the data bits of a command other than PUSH, and the key of a command other than CALCMIC and VERIFY, are
ignored. -/
def Obligations.UnusedOperandBitsIgnored : Prop :=
  ∀ (cw cw' : CmdWord) (key key' : Key) (s : State),
    cw.extractLsb' 8 4 = cw'.extractLsb' 8 4 →
    (cw.extractLsb' 8 4 = 0x2 → cw.extractLsb' 0 8 = cw'.extractLsb' 0 8) →
    (cw.extractLsb' 8 4 = 0x4 ∨ cw.extractLsb' 8 4 = 0x5 → key = key') →
    exec (decodeCommand cw key) s = exec (decodeCommand cw' key') s

/-- R96: LOAD s, run from an idle block with any contents, leaves the bytes of s in FB from index 0 (the first PHY_MAX
of them when s is longer, with OVF set), LEN their number, and everything else as after INVALIDATE(). -/
def Obligations.LoadFillsFrameBuffer : Prop :=
  ∀ (bytes : List Byte) (s : State), s.config.ok = true → s.fb.wf = true → s.busy = false →
    ∃ t, Host.Core.run core (bytes.length + 1) { s with moves := loadMoves bytes ++ s.moves } = .next t ∧
      t.moves = s.moves ∧ t.config = s.config ∧
      t.len.toNat = min bytes.length s.config.phyMax ∧
      (∀ i, i < min bytes.length s.config.phyMax → t.fb.read i = bytes.getD i 0) ∧
      t.ovf = decide (s.config.phyMax < bytes.length) ∧
      Invalidated t ∧ SameOutputBytes s t ∧ SameControl s t

/-! ### The frame-control decoder and the frame-header unpacker -/

/-- R105, R107: the two frame-control rows write the seven frame-control registers from the byte, and nothing else; the
flag a direction does not expose reads 0. -/
def Obligations.FctrlRowsWriteTheSevenRegisters : Prop :=
  (∀ (b : Byte) (s : State), exec (decodeFctrl .uplink b) s = .next { s with results := { s.results with
      fctrl := b, adr := b.getLsbD 7, adrackreq := b.getLsbD 6, ack := b.getLsbD 5, fpending := false
      rfu := b.getLsbD 4, foptslen := b.extractLsb' 0 4 } }) ∧
  (∀ (b : Byte) (s : State), exec (decodeFctrl .downlink b) s = .next { s with results := { s.results with
      fctrl := b, adr := b.getLsbD 7, adrackreq := false, ack := b.getLsbD 5, fpending := b.getLsbD 4
      rfu := b.getLsbD 6, foptslen := b.extractLsb' 0 4 } }) ∧
  (∀ (a q k r p : Bool) (n : BitVec 4) (s : State),
    (∃ t, exec (.fctrlUp a q k r n) s = .next t ∧ t.results.adr = a ∧ t.results.adrackreq = q ∧ t.results.ack = k ∧
      t.results.rfu = r ∧ t.results.fpending = false ∧ t.results.foptslen = n) ∧
    (∃ t, exec (.fctrlDown a r k p n) s = .next t ∧ t.results.adr = a ∧ t.results.rfu = r ∧ t.results.ack = k ∧
      t.results.fpending = p ∧ t.results.adrackreq = false ∧ t.results.foptslen = n))

/-- R108: encoding a decoded frame-control value gives the raw byte back, for all 256 bytes and both directions. -/
def Obligations.FctrlEncodeGivesTheByteBack : Prop :=
  ∀ (b : Byte) (d : Direction), fctrlEncode (fctrlDecode b d) = b ∧ encode (decodeFctrl d b) = [b]

/-- R121 with R119: a header that decodes encodes back to the bytes it was read from, and its lengths agree. -/
def Obligations.HeaderRoundTrip : Prop :=
  ∀ (mac : List Byte) (d : Direction) (h : FrameHeader), fhdrDecode mac d = .ok h →
    fhdrEncode h.devaddr h.fc.fctrl h.fcnt h.fopts = sub mac 0 (7 + h.fc.foptslen.toNat) ∧
    h.fc.foptslen.toNat ≤ 15 ∧ h.fopts.length = h.fc.foptslen.toNat ∧
    h.fhdrlen.toNat = 7 + h.fc.foptslen.toNat ∧ 7 ≤ h.fhdrlen.toNat ∧ h.fhdrlen.toNat ≤ 22 ∧
    h.fhdrlen.toNat ≤ mac.length

/-! ### PARSE and the dispatcher -/

/-- R126, R211: with OVF = 1 PARSE fails with Overflow, OVF stays 1, and the next PARSE fails the same way. -/
def Obligations.ParseRefusesOverflow : Prop :=
  ∀ (d : Byte) (s : State), s.ovf = true → ∃ t, exec (.parse d) s = .next t ∧
    ParseFailed s t .overflow 0 ∧ t.ovf = true ∧ exec (.parse d) t = .next t

/-- R127: a frame of fewer than 5 bytes is TruncatedFrame, sub-cause 1. -/
def Obligations.ParseRefusesShortFrame : Prop :=
  ∀ (d : Byte) (s : State), s.ovf = false → s.len.toNat < 5 → ∃ t, exec (.parse d) s = .next t ∧
    ParseFailed s t .truncatedFrame 1

/-- R125, R130: past its own two checks PARSE is INVALIDATE() and then the row of the opcode table that the MHdr byte
decodes to. -/
def Obligations.ParseRunsTheMhdrRow : Prop :=
  ∀ (d : Byte) (s : State), s.ovf = false → 5 ≤ s.len.toNat →
    exec (.parse d) s = exec (decodeMhdr (s.fb.read 0)) s.invalidate

/-- R131, R208: type codes 6 and 7 record UnsupportedType with the code, whatever the MacPayload. -/
def Obligations.UnsupportedTypeRows : Prop :=
  (∀ (low : BitVec 5) (s : State),
    exec (.unsupportedType6 low) s = .next { s with err := .unsupportedType, errsub := 6 } ∧
    exec (.unsupportedType7 low) s = .next { s with err := .unsupportedType, errsub := 7 }) ∧
  ErrorKind.unsupportedType.code = 1 ∧
  (∀ (d : Byte) (s : State), s.ovf = false → 5 ≤ s.len.toNat → 6 ≤ s.wireType →
    ∃ t, exec (.parse d) s = .next t ∧ ParseFailed s t .unsupportedType (BitVec.ofNat 4 s.wireType))

/-- R140, R141: the join-request row, on a frame of 23 bytes and on any other length. -/
def Obligations.JoinRequestRow : Prop :=
  ∀ (low : BitVec 5) (s : State), 5 ≤ s.len.toNat →
    (s.len.toNat = 23 → exec (.joinRequest low) s = .next { s with
      variant := .joinRequest, err := .noError, errsub := 0
      results := { s.results with
        mhdr := 0#3 ++ low, mtype := 0, maclen := 18
        mic := #v[s.fb.read 19, s.fb.read 20, s.fb.read 21, s.fb.read 22]
        appeui := BitVec.ofNat 64 (le (s.fb.slice 1 8))
        deveui := BitVec.ofNat 64 (le (s.fb.slice 9 8))
        devnonce := #v[s.fb.read 17, s.fb.read 18] } }) ∧
    (s.len.toNat ≠ 23 → exec (.joinRequest low) s = .next { s with err := .truncatedFrame, errsub := 2 })

/-- R142, R143, R144: the join-accept row, on frames of 17 and 33 bytes and on any other length. -/
def Obligations.JoinAcceptRow : Prop :=
  ∀ (low : BitVec 5) (s : State), 5 ≤ s.len.toNat →
    (s.len.toNat = 17 → exec (.joinAccept low) s = .next { s with
      variant := .joinAccept, err := .noError, errsub := 0
      results := { s.results with
        mhdr := 1#3 ++ low, mtype := 1, maclen := 12
        mic := #v[s.fb.read 13, s.fb.read 14, s.fb.read 15, s.fb.read 16]
        appnonce := #v[s.fb.read 1, s.fb.read 2, s.fb.read 3]
        netid := #v[s.fb.read 4, s.fb.read 5, s.fb.read 6]
        devaddr := BitVec.ofNat 32 (le (s.fb.slice 7 4))
        dlsettings := s.fb.read 11, rxdelay := s.fb.read 12
        cflistp := false, cflist := Vector.replicate 16 0 } }) ∧
    (s.len.toNat = 33 → ∃ t, exec (.joinAccept low) s = .next t ∧ t = { s with
        variant := .joinAccept, err := .noError, errsub := 0
        results := { s.results with
          mhdr := 1#3 ++ low, mtype := 1, maclen := 28
          mic := #v[s.fb.read 29, s.fb.read 30, s.fb.read 31, s.fb.read 32]
          appnonce := #v[s.fb.read 1, s.fb.read 2, s.fb.read 3]
          netid := #v[s.fb.read 4, s.fb.read 5, s.fb.read 6]
          devaddr := BitVec.ofNat 32 (le (s.fb.slice 7 4))
          dlsettings := s.fb.read 11, rxdelay := s.fb.read 12
          cflistp := true, cflist := t.results.cflist } } ∧
      t.results.cflist.toList = s.fb.slice 13 16) ∧
    (s.len.toNat ≠ 17 → s.len.toNat ≠ 33 →
      exec (.joinAccept low) s = .next { s with err := .truncatedFrame, errsub := 3 })

/-- The four data rows of the opcode table with the variant, direction and type code each stands for (R62, R151). -/
def dataRows (low : BitVec 5) : List (Instr × Variant × Direction × BitVec 3) :=
  [(.unconfirmedDataUp low, .unconfirmedDataUp, .uplink, 2), (.unconfirmedDataDown low, .unconfirmedDataDown, .downlink, 3),
   (.confirmedDataUp low, .confirmedDataUp, .uplink, 4), (.confirmedDataDown low, .confirmedDataDown, .downlink, 5)]

/-- R116, R117: the two length checks of a data row, in their order, before anything is written. -/
def Obligations.DataRowsCheckTheHeader : Prop :=
  ∀ (low : BitVec 5) (s : State), 5 ≤ s.len.toNat → ∀ row ∈ dataRows low,
    (s.len.toNat < 10 → exec row.1 s = .next { s with err := .truncatedFrame, errsub := 4 }) ∧
    (10 ≤ s.len.toNat → s.len.toNat < 12 + s.wireFOptsLen →
      exec row.1 s = .next { s with err := .truncatedFrame, errsub := 5 })

/-- R150, R152, R115, R118: the registers a data row writes on a frame that is long enough, and its frame. -/
def Obligations.DataRowsUnpackTheMessage : Prop :=
  ∀ (low : BitVec 5) (s : State), 12 + s.wireFOptsLen ≤ s.len.toNat → ∀ row ∈ dataRows low,
    ∃ t, exec row.1 s = .next t ∧
      t.variant = row.2.1 ∧ t.err = .noError ∧ t.errsub = 0 ∧
      SameMic s t ∧ t.olen = s.olen ∧ ParseFrame s t ∧
      t.results.mhdr = row.2.2.2 ++ low ∧ t.results.mtype = row.2.2.2 ∧
      t.results.maclen.toNat = s.len.toNat - 5 ∧
      t.results.mic.toList = s.fb.slice (s.len.toNat - 4) 4 ∧
      t.results.dir = row.2.2.1 ∧
      t.results.devaddr.toNat = le (s.fb.slice 1 4) ∧
      t.results.fctrl = s.fb.read 5 ∧
      t.results.foptslen.toNat = s.wireFOptsLen ∧
      t.results.fcnt.toNat = le (s.fb.slice 6 2) ∧
      t.results.fopts.toList = s.fb.slice 8 s.wireFOptsLen ++ List.replicate (15 - s.wireFOptsLen) 0 ∧
      t.results.fhdrlen.toNat = 7 + s.wireFOptsLen ∧
      (s.len.toNat = 12 + s.wireFOptsLen →
        t.results.fportp = false ∧ t.results.fport = 0 ∧ t.results.frmlen = 0 ∧ t.results.frmoff = 0) ∧
      (12 + s.wireFOptsLen < s.len.toNat →
        t.results.fportp = true ∧ t.results.fport = s.fb.read (8 + s.wireFOptsLen) ∧
        t.results.frmlen.toNat = s.len.toNat - 13 - s.wireFOptsLen ∧
        t.results.frmoff.toNat = (if s.len.toNat = 13 + s.wireFOptsLen then 0 else 9 + s.wireFOptsLen)) ∧
      t.results.appeui = s.results.appeui ∧ t.results.deveui = s.results.deveui ∧
      t.results.devnonce = s.results.devnonce ∧ t.results.appnonce = s.results.appnonce ∧
      t.results.netid = s.results.netid ∧ t.results.dlsettings = s.results.dlsettings ∧
      t.results.rxdelay = s.results.rxdelay ∧ t.results.cflistp = s.results.cflistp ∧
      t.results.cflist = s.results.cflist

/-- R110, R115: the frame-control registers of a data message are the ones the frame-control row of its direction leaves
on the byte FB[5]. -/
def Obligations.DataRowsRunTheFctrlRow : Prop :=
  ∀ (low : BitVec 5) (s : State), 12 + s.wireFOptsLen ≤ s.len.toNat → ∀ row ∈ dataRows low,
    ∃ t u, exec row.1 s = .next t ∧ exec (decodeFctrl row.2.2.1 (s.fb.read 5)) s = .next u ∧
      t.results.fctrl = u.results.fctrl ∧ t.results.adr = u.results.adr ∧
      t.results.adrackreq = u.results.adrackreq ∧ t.results.ack = u.results.ack ∧
      t.results.fpending = u.results.fpending ∧ t.results.rfu = u.results.rfu ∧
      t.results.foptslen = u.results.foptslen

/-- R154: confirmed and unconfirmed differ in VARIANT, MTYPE and the MHdr byte only. -/
def Obligations.ConfirmedDiffersInTagOnly : Prop :=
  ∀ (low : BitVec 5) (s t u : State), 12 + s.wireFOptsLen ≤ s.len.toNat →
    ((exec (.unconfirmedDataUp low) s = .next t ∧ exec (.confirmedDataUp low) s = .next u) →
      u = { t with variant := .confirmedDataUp, results := { t.results with mhdr := 4#3 ++ low, mtype := 4 } }) ∧
    ((exec (.unconfirmedDataDown low) s = .next t ∧ exec (.confirmedDataDown low) s = .next u) →
      u = { t with variant := .confirmedDataDown, results := { t.results with mhdr := 5#3 ++ low, mtype := 5 } })

/-- R132, R135: PARSE succeeds on a frame that fits its variant: VARIANT is the type code, the common registers and ERR
are set, the MIC results and OLEN cleared, nothing else touched; and no other frame parses. -/
def Obligations.ParseSucceedsExactlyOnFittingFrames : Prop :=
  ∀ (d : Byte) (s : State), s.ovf = false →
    (FrameFits s → ∃ t v, exec (.parse d) s = .next t ∧ v ≠ Variant.noVariant ∧ v.tag.toNat = s.wireType ∧
      ParseSucceeded s t v ∧
      t.results.mhdr = s.fb.read 0 ∧ t.results.mtype.toNat = s.wireType ∧
      t.results.maclen.toNat = s.len.toNat - 5 ∧
      t.results.mic.toList = s.fb.slice (s.len.toNat - 4) 4) ∧
    (¬ FrameFits s → ∃ t e sub, exec (.parse d) s = .next t ∧ e ≠ ErrorKind.noError ∧ ParseFailed s t e sub)

/-- R213: the first check that fails, in the order Overflow, PHY_SHORT, UnsupportedType, the variant's own, is the one
reported. -/
def Obligations.ParseErrorPriority : Prop :=
  ∀ (d : Byte) (s : State), ¬ (s.ovf = false ∧ FrameFits s) → ∃ t, exec (.parse d) s = .next t ∧
    (if s.ovf = true then ParseFailed s t .overflow 0
     else if s.len.toNat < 5 then ParseFailed s t .truncatedFrame 1
     else if 6 ≤ s.wireType then ParseFailed s t .unsupportedType (BitVec.ofNat 4 s.wireType)
     else if s.wireType = 0 then ParseFailed s t .truncatedFrame 2
     else if s.wireType = 1 then ParseFailed s t .truncatedFrame 3
     else if s.len.toNat - 5 < 5 then ParseFailed s t .truncatedFrame 4
     else ParseFailed s t .truncatedFrame 5)

/-- R25: after a PARSE of a data frame the join registers have their reset values, after a join-request everything else
has, and after a join-accept everything else has. -/
def Obligations.UnusedRegistersReadReset : Prop :=
  ∀ (d : Byte) (s t : State), exec (.parse d) s = .next t →
    let r := t.results
    let z := Results.reset
    let headerReset := r.dir = z.dir ∧ r.fctrl = z.fctrl ∧ r.adr = z.adr ∧ r.adrackreq = z.adrackreq ∧
      r.ack = z.ack ∧ r.fpending = z.fpending ∧ r.rfu = z.rfu ∧ r.foptslen = z.foptslen ∧ r.fcnt = z.fcnt ∧
      r.fopts = z.fopts ∧ r.fhdrlen = z.fhdrlen ∧ r.fportp = z.fportp ∧ r.fport = z.fport ∧
      r.frmoff = z.frmoff ∧ r.frmlen = z.frmlen
    let requestReset := r.appeui = z.appeui ∧ r.deveui = z.deveui ∧ r.devnonce = z.devnonce
    let acceptReset := r.appnonce = z.appnonce ∧ r.netid = z.netid ∧ r.dlsettings = z.dlsettings ∧
      r.rxdelay = z.rxdelay ∧ r.cflistp = z.cflistp ∧ r.cflist = z.cflist
    (t.variant = .joinRequest → headerReset ∧ r.devaddr = z.devaddr ∧ acceptReset) ∧
    (t.variant = .joinAccept → headerReset ∧ requestReset) ∧
    (t.variant = .unconfirmedDataUp ∨ t.variant = .unconfirmedDataDown ∨ t.variant = .confirmedDataUp ∨
      t.variant = .confirmedDataDown → requestReset ∧ acceptReset) ∧
    (t.variant = .noVariant → r = z)

/-- R155: the lengths of a parsed data message add up, exactly FOPTSLEN bytes of FOPTS are frame data, and FRMPayload
ends where the MIC begins. -/
def Obligations.DataLengthsAddUp : Prop :=
  ∀ (d : Byte) (s t : State), exec (.parse d) s = .next t → 2 ≤ t.variant.tag.toNat → t.variant.tag.toNat ≤ 5 →
    let r := t.results
    r.maclen.toNat = r.fhdrlen.toNat + r.fportp.toNat + r.frmlen.toNat ∧
    r.fhdrlen.toNat = 7 + r.foptslen.toNat ∧
    r.foptslen.toNat ≤ 15 ∧
    r.fopts.toList = s.fb.slice 8 r.foptslen.toNat ++ List.replicate (15 - r.foptslen.toNat) 0 ∧
    (r.fportp = false → r.frmlen = 0) ∧
    (0 < r.frmlen.toNat → r.frmoff.toNat = 9 + r.foptslen.toNat ∧
      r.frmoff.toNat + r.frmlen.toNat = t.len.toNat - 4) ∧
    (r.frmlen = 0 → r.frmoff = 0)

/-- R136: a second PARSE changes nothing. -/
def Obligations.ParseIsIdempotent : Prop :=
  ∀ (d d' : Byte) (s t : State), exec (.parse d) s = .next t → exec (.parse d') t = .next t

/-- R136, R6, R48: what PARSE leaves in VARIANT, the parse results, ERR and ERRSUB depends on FB[0 .. LEN-1], LEN and OVF
alone. -/
def Obligations.ParseReadsTheFrameOnly : Prop :=
  ∀ (d d' : Byte) (s s' t t' : State), s.len = s'.len → s.ovf = s'.ovf →
    (∀ i, i < s.len.toNat → s.fb.read i = s'.fb.read i) →
    exec (.parse d) s = .next t → exec (.parse d') s' = .next t' →
    SameParse t t' ∧ SameError t t'

/-! ### The MIC-input assembler and the MIC commands -/

/-- R161 to R164: the MIC input of each variant, byte by byte from the registers. -/
def Obligations.MicInputLayout : Prop :=
  ∀ (s : State),
    let r := s.results
    let b0 := [0x49, 0x00, 0x00, 0x00, 0x00] ++ [r.dir.toByte] ++ lebytes 4 r.devaddr.toNat ++
      (lebytes 2 r.fcnt.toNat ++ [0x00, 0x00]) ++ [0x00] ++ [BitVec.ofNat 8 (s.len.toNat - 4)]
    let dataMsg := [r.mhdr] ++ (lebytes 4 r.devaddr.toNat ++ [r.fctrl] ++ lebytes 2 r.fcnt.toNat ++
        r.fopts.toList.take r.foptslen.toNat) ++ (if r.fportp then [r.fport] else []) ++
      s.fb.slice r.frmoff.toNat r.frmlen.toNat
    (s.variant = .joinRequest →
      s.micIn = [r.mhdr] ++ lebytes 8 r.appeui.toNat ++ lebytes 8 r.deveui.toNat ++ r.devnonce.toList) ∧
    (s.variant = .joinAccept →
      s.micIn = [r.mhdr] ++ r.appnonce.toList ++ r.netid.toList ++ lebytes 4 r.devaddr.toNat ++ [r.dlsettings] ++
        [r.rxdelay] ++ (if r.cflistp then r.cflist.toList else [])) ∧
    (s.variant = .unconfirmedDataUp ∨ s.variant = .unconfirmedDataDown ∨ s.variant = .confirmedDataUp ∨
      s.variant = .confirmedDataDown → s.micIn = b0 ++ dataMsg)

/-- R176: for a parsed frame the field form of msg is the buffer form FB[0 .. LEN-5]. -/
def Obligations.FieldFormIsBufferForm : Prop :=
  ∀ (d : Byte) (s t : State), exec (.parse d) s = .next t → t.variant ≠ .noVariant →
    t.fieldMsg = s.fb.slice 0 (s.len.toNat - 4)

/-- R175: the length of the MIC input of a parsed frame. -/
def Obligations.MicInputLengths : Prop :=
  ∀ (d : Byte) (s t : State), exec (.parse d) s = .next t →
    (t.variant = .joinRequest → t.micIn.length = 19) ∧
    (t.variant = .joinAccept → t.micIn.length = if t.results.cflistp then 29 else 13) ∧
    (2 ≤ t.variant.tag.toNat → t.variant.tag.toNat ≤ 5 → t.micIn.length = s.len.toNat + 12 ∧ 24 ≤ t.micIn.length ∧
      (s.len.toNat ≤ s.config.phyMax → t.micIn.length ≤ s.config.phyMax + 12) ∧
      (s.config.ok = true → s.len.toNat ≤ s.config.phyMax → t.micIn.length ≤ 271))

/-- R166, R167: CALCMIC's issue step, with a variant held and with none. -/
def Obligations.CalcmicIssue : Prop :=
  ∀ (d : Byte) (key : List Byte) (s : State),
    (s.variant ≠ .noVariant → exec (.calcmic d key) s = .next { s with
      cmic := #v[0, 0, 0, 0], micdone := false, micok := false, err := .noError, errsub := 0
      pend := some { kind := .calc, key := key, msg := s.micIn }, busy := true }) ∧
    (s.variant = .noVariant → exec (.calcmic d key) s = .next { s with
      cmic := #v[0, 0, 0, 0], micdone := false, micok := false, err := .unimplemented, errsub := 0 })

/-- R169, R170: VERIFY's issue step, with a variant held and with none; ERR and ERRSUB are not written there, nor at its
completion. -/
def Obligations.VerifyIssue : Prop :=
  (∀ (d : Byte) (key : List Byte) (s : State),
    (s.variant ≠ .noVariant → exec (.verify d key) s = .next { s with
      cmic := #v[0, 0, 0, 0], micdone := false, micok := false
      pend := some { kind := .verify, key := key, msg := s.micIn }, busy := true }) ∧
    (s.variant = .noVariant → exec (.verify d key) s = .next { s with
      cmic := #v[0, 0, 0, 0], micdone := false, micok := false })) ∧
  (∀ (s : State) (p : Request) (rest : List Move), s.busy = true → s.pend = some p → p.kind = .verify →
    s.moves = .response :: rest → ∃ t, step s = .next t ∧ SameError s t)

/-- R168, R171: the completion step on the engine's response, tag = CMAC(PEND.key, PEND.msg). -/
def Obligations.CompletionTakesTheTag : Prop :=
  ∀ (s : State) (p : Request) (rest : List Move), s.busy = true → s.pend = some p →
    s.moves = .response :: rest →
    let tag := cmac p.key p.msg
    let first4 : Vector Byte 4 := #v[tag.getD 0 0, tag.getD 1 0, tag.getD 2 0, tag.getD 3 0]
    step s = .next { s with
      moves := rest
      cmic := first4
      micdone := true
      micok := decide (p.kind = .verify ∧ first4 = s.results.mic)
      pend := none
      busy := false }

/-- R181: a tag is 16 bytes, for every 16-byte key and every message. -/
def Obligations.TagHasSixteenBytes : Prop :=
  ∀ (key msg : List Byte), key.length = 16 → (cmac key msg).length = 16

/-- `47_cmac_interface.md` section 2.3, the last known answer: the MIC of the source's scenario 5. -/
def Obligations.CmacScenarioFive : Prop :=
  cmac
    [0x44, 0x02, 0x42, 0x41, 0xED, 0x4C, 0xE9, 0xA6, 0x8C, 0x6A, 0x8B, 0xC0, 0x55, 0x23, 0x3F, 0xD3]
    [0x49, 0x00, 0x00, 0x00, 0x00, 0x00, 0xF1, 0x7D, 0xBE, 0x49, 0x03, 0x00, 0x00, 0x00, 0x00, 0x09,
     0x40, 0xF1, 0x7D, 0xBE, 0x49, 0x00, 0x03, 0x00, 0x01] =
    [0x2A, 0x35, 0x18, 0xAF, 0x84, 0x49, 0x17, 0xA3, 0x6B, 0x0C, 0x42, 0x2A, 0xBF, 0x9A, 0x7F, 0xAE]

/-- R174: the MIC input, hence CMIC under a key, depends on FB[0 .. LEN-5] alone; the stored MIC bytes do not enter. -/
def Obligations.MicInputIgnoresTheStoredMic : Prop :=
  ∀ (d d' : Byte) (s s' t t' : State), s.ovf = false → s'.ovf = false → s.len = s'.len →
    (∀ i, i < s.len.toNat - 4 → s.fb.read i = s'.fb.read i) →
    exec (.parse d) s = .next t → exec (.parse d') s' = .next t' → t.micIn = t'.micIn

/-- R177: altering any byte of FB[0 .. LEN-5] changes the MIC input. -/
def Obligations.AlteredMessageChangesTheRequest : Prop :=
  ∀ (d d' : Byte) (s s' t t' : State), s.len = s'.len →
    exec (.parse d) s = .next t → exec (.parse d') s' = .next t' →
    t.variant ≠ .noVariant → t'.variant ≠ .noVariant → t.micIn = t'.micIn →
    ∀ i, i < s.len.toNat - 4 → s.fb.read i = s'.fb.read i

/-- R177: of two frames that differ in their MIC bytes only, VERIFY under one key accepts at most one. -/
def Obligations.VerifySeesEveryMicByte : Prop :=
  ∀ (d : Byte) (key : List Byte) (s s' t t' u u' : State) (i : Nat),
    s.busy = false → s'.busy = false → s.ovf = false → s'.ovf = false → s.len = s'.len → 5 ≤ s.len.toNat →
    (∀ j, j < s.len.toNat - 4 → s.fb.read j = s'.fb.read j) →
    i < 4 → s.fb.read (s.len.toNat - 4 + i) ≠ s'.fb.read (s.len.toNat - 4 + i) →
    s.moves = [] → s'.moves = [] →
    (∃ p, exec (.parse d) s = .next p ∧ exec (.verify d key) p = .next t ∧ step t = .next u) →
    (∃ p', exec (.parse d) s' = .next p' ∧ exec (.verify d key) p' = .next t' ∧ step t' = .next u') →
    u.micok = true → u'.micok = false ∧ u'.cmic = u.cmic

/-! ### SERIALIZE -/

/-- R196: SER() of each variant, from the registers. -/
def Obligations.SerLayout : Prop :=
  ∀ (s : State),
    let r := s.results
    (s.variant = .joinRequest → s.ser =
      [r.mhdr] ++ lebytes 8 r.appeui.toNat ++ lebytes 8 r.deveui.toNat ++ r.devnonce.toList ++ r.mic.toList) ∧
    (s.variant = .joinAccept → s.ser =
      [r.mhdr] ++ r.appnonce.toList ++ r.netid.toList ++ lebytes 4 r.devaddr.toNat ++ [r.dlsettings] ++ [r.rxdelay] ++
        (if r.cflistp then r.cflist.toList else []) ++ r.mic.toList) ∧
    (s.variant = .unconfirmedDataUp ∨ s.variant = .unconfirmedDataDown ∨ s.variant = .confirmedDataUp ∨
      s.variant = .confirmedDataDown → s.ser =
        [r.mhdr] ++ fhdrEncode r.devaddr r.fctrl r.fcnt (r.fopts.toList.take r.foptslen.toNat) ++
          (if r.fportp then [r.fport] else []) ++ s.fb.slice r.frmoff.toNat r.frmlen.toNat ++ r.mic.toList)

/-- R195, R198: SERIALIZE writes SER() to OB from index 0 and its length to OLEN, and nothing else; with no variant held
OLEN is 0. -/
def Obligations.SerializeWritesTheOutput : Prop :=
  ∀ (d : Byte) (s : State), s.ob.wf = true → s.ser.length < 512 →
    (s.variant ≠ .noVariant → ∃ t, exec (.serialize d) s = .next t ∧
      t.olen.toNat = s.ser.length ∧
      (∀ i, i < s.ser.length → t.ob.read i = s.ser.getD i 0) ∧
      (∀ a, s.ser.length ≤ a → t.ob.read a = s.ob.read a) ∧
      SameFrameStore s t ∧ SameParse s t ∧ SameError s t ∧ SameMic s t ∧ SameControl s t ∧ SameModel s t) ∧
    (s.variant = .noVariant → exec (.serialize d) s = .next { s with olen := 0 })

/-- R197: after a successful PARSE, SERIALIZE gives the loaded frame back, byte for byte. -/
def Obligations.SerializeRoundTrip : Prop :=
  ∀ (d d' : Byte) (s t : State), s.ob.wf = true → exec (.parse d) s = .next t → t.variant ≠ .noVariant →
    ∃ u, exec (.serialize d') t = .next u ∧ u.olen = s.len ∧
      ∀ i, i < s.len.toNat → u.ob.read i = s.fb.read i

/-! ### The host's read port, reset, and the step -/

/-- R18, R19: the packing of STATUS and of the ERR port register, and their register numbers. -/
def Obligations.StatusAndErrorPacking : Prop :=
  ∀ (s : State) (idx : Nat),
    s.port 0x00 idx = .value (s.status.setWidth 64) ∧ s.port 0x01 idx = .value (s.errReg.setWidth 64) ∧
    s.status.getLsbD 0 = s.busy ∧ s.status.getLsbD 1 = decide (s.variant.tag ≠ 7) ∧
    s.status.getLsbD 2 = s.micdone ∧ s.status.getLsbD 3 = s.micok ∧ s.status.getLsbD 4 = s.ovf ∧
    s.status.extractLsb' 5 3 = 0 ∧
    s.errReg.extractLsb' 0 3 = s.err.code ∧ s.errReg.getLsbD 3 = false ∧ s.errReg.extractLsb' 4 4 = s.errsub

/-- R24: what the buffer registers, the array registers beyond their size and the unassigned numbers read. The unspecified
byte is a free value (log 6: DESIGN CHOICE). -/
def Obligations.PortReads : Prop :=
  ∀ (s : State) (idx : Nat),
    (idx < s.len.toNat → s.port 0x20 idx = .value ((s.fb.read idx).setWidth 64)) ∧
    (s.len.toNat ≤ idx → s.port 0x20 idx = .unspecified) ∧
    (idx < s.olen.toNat → s.port 0x1F idx = .value ((s.ob.read idx).setWidth 64)) ∧
    (s.olen.toNat ≤ idx → s.port 0x1F idx = .unspecified) ∧
    (4 ≤ idx → s.port 0x07 idx = .value 0 ∧ s.port 0x1D idx = .value 0) ∧
    (15 ≤ idx → s.port 0x0E idx = .value 0) ∧ (2 ≤ idx → s.port 0x16 idx = .value 0) ∧
    (3 ≤ idx → s.port 0x17 idx = .value 0 ∧ s.port 0x18 idx = .value 0) ∧
    (16 ≤ idx → s.port 0x1C idx = .value 0) ∧
    (∀ no : BitVec 6, 0x21 ≤ no.toNat → s.port no idx = .value 0)

/-- R24, R49, R90: a read may happen at any time, BUSY or not, and changes nothing of the block: the answer goes to the
model's rdData, and only an unspecified byte advances the model's counter of free values. -/
def Obligations.ReadsHaveNoSideEffect : Prop :=
  ∀ (s : State) (no : BitVec 6) (idx : Nat) (rest : List Move), s.moves = .read no idx :: rest →
    (∀ v, s.port no idx = .value v → step s = .next { s with moves := rest, rdData := v }) ∧
    (s.port no idx = .unspecified → step s = .next { s with
      moves := rest, rdData := (Config.freeByte s.draws).setWidth 64, draws := s.draws + 1 })

/-- R235, R236: reset, at any time, BUSY or not, gives the reset state and abandons an outstanding request; a response
that comes after it is discarded. (The model's own fields stay: log 8, DESIGN CHOICE.) -/
def Obligations.ResetAbandonsTheRequest : Prop :=
  ∀ (s : State) (rest : List Move), s.moves = .reset :: rest →
    ∃ t, step s = .next t ∧
      t = { State.reset with config := s.config, moves := rest, draws := s.draws, rdData := s.rdData } ∧
      (∀ rest', rest = .response :: rest' → step t = .next { t with moves := rest' })

/-- R236: a response that arrives when no request is outstanding changes nothing. -/
def Obligations.LateResponseDiscarded : Prop :=
  ∀ (s : State) (rest : List Move), s.busy = false → s.moves = .response :: rest →
    step s = .next { s with moves := rest }

/-- R90, R28: with BUSY = 0 the step is the accepted command's meaning on the state without that command. -/
def Obligations.StepRunsTheAcceptedCommand : Prop :=
  ∀ (s : State) (cw : CmdWord) (key : Key) (rest : List Move), s.busy = false → s.moves = .command cw key :: rest →
    step s = exec (decodeCommand cw key) { s with moves := rest }

/-- R90, R238: while BUSY = 1 no command is accepted: the command waits where it is, and what the step does instead is
the engine's completion, which leaves the frame store, the parse results, ERR and OB alone. (That the engine answers
in this step is log 2: DESIGN CHOICE.) -/
def Obligations.NoCommandAcceptedWhileBusy : Prop :=
  ∀ (s : State) (p : Request) (cw : CmdWord) (key : Key) (rest : List Move),
    s.busy = true → s.pend = some p → s.moves = .command cw key :: rest →
    ∃ t, step s = .next t ∧ t.moves = s.moves ∧ t.busy = false ∧ t.pend = none ∧ t.micdone = true ∧
      SameFrameStore s t ∧ SameParse s t ∧ SameError s t ∧ SameOutputBytes s t ∧ t.olen = s.olen

/-- R27: no command but CLEAR, PUSH and PARSE, no read and no response changes VARIANT or a parse-result register. -/
def Obligations.ParseResultsAreImmutable : Prop :=
  (∀ (cw : CmdWord) (key : Key) (s t : State), cw.extractLsb' 8 4 ≠ 0x1 → cw.extractLsb' 8 4 ≠ 0x2 →
    cw.extractLsb' 8 4 ≠ 0x3 → exec (decodeCommand cw key) s = .next t → SameParse s t ∧ SameFrameStore s t) ∧
  (∀ (s t : State) (m : Move) (rest : List Move), s.moves = m :: rest →
    (m = .response ∨ ∃ no idx, m = .read no idx) → step s = .next t → SameParse s t ∧ SameFrameStore s t)

/-- R19, R205, R215, R216: which commands write ERR and what they leave in it. -/
def Obligations.WhoWritesErr : Prop :=
  ∀ (cw : CmdWord) (key : Key) (s t : State), exec (decodeCommand cw key) s = .next t →
    let op := cw.extractLsb' 8 4
    ((op = 0x0 ∨ op = 0x5 ∨ op = 0x6) → SameError s t) ∧
    ((op = 0x1 ∨ op = 0x2) → t.err = .noError ∧ t.errsub = 0) ∧
    (op = 0x3 → t.err = .noError ∨ t.err = .overflow ∨ t.err = .truncatedFrame ∨ t.err = .unsupportedType) ∧
    (op = 0x4 → (t.err = .noError ∨ t.err = .unimplemented) ∧ t.errsub = 0) ∧
    (7 ≤ op.toNat → t.err = .badCommand ∧ t.errsub = op)

/-! ### Encodings -/

/-- Words written out bit by bit from R62, R63, R64 and R72 decode to the rows they stand for. -/
def Obligations.SpecWordsDecode : Prop :=
  decodeCommand 0b000000000000#12 zeroKey = .nop 0x00 ∧
  decodeCommand 0b000100000000#12 zeroKey = .clear 0x00 ∧
  decodeCommand 0b001001000000#12 zeroKey = .push 0x40 ∧
  decodeCommand 0b001100000000#12 zeroKey = .parse 0x00 ∧
  decodeCommand 0b010000000000#12 zeroKey = .calcmic 0x00 (List.replicate 16 0) ∧
  decodeCommand 0b010100000000#12 zeroKey = .verify 0x00 (List.replicate 16 0) ∧
  decodeCommand 0b011000000000#12 zeroKey = .serialize 0x00 ∧
  decodeCommand 0b011110101011#12 zeroKey = .reserved7 0xAB ∧
  decodeMhdr 0b00000000#8 = .joinRequest 0 ∧
  decodeMhdr 0b00100000#8 = .joinAccept 0 ∧
  decodeMhdr 0b01011111#8 = .unconfirmedDataUp 31 ∧
  decodeMhdr 0b10100001#8 = .confirmedDataDown 1 ∧
  decodeMhdr 0b11000000#8 = .unsupportedType6 0 ∧
  decodeFctrl .uplink 0b10100101#8 = .fctrlUp true false true false 5 ∧
  decodeFctrl .downlink 0b00010000#8 = .fctrlDown false false false true 0

/-- Every well-formed instruction is decoded from its encoding, with every operand, whatever follows it. -/
def Obligations.DecodeInvertsEncode : Prop :=
  ∀ (i : Instr) (rest : List Byte), i.wf = true → decode i.format (encode i ++ rest) = .ok (i, rest)

/-- What decodes is well formed, of the format it was decoded in, and encodes back to the bytes it was read from. -/
def Obligations.EncodeInvertsDecode : Prop :=
  ∀ (f : Format) (bytes rest : List Byte) (i : Instr), decode f bytes = .ok (i, rest) →
    i.wf = true ∧ i.format = f ∧ encode i ++ rest = bytes

/-- The words of the opcode table, placed for the next step: a command word is the accepted command; an MHdr byte is the
row that PARSE's dispatcher runs (log 11: DESIGN CHOICE). -/
def Obligations.FetchWordRunsTheInstruction : Prop :=
  (∀ (s : State) (w : Nat), w < 4096 → ∃ i, decodeTableWord 16 w = some i ∧ i.format = .cmd ∧
    step (s.withFetchWord 16 w) = exec i { s with busy := false, pend := none }) ∧
  (∀ (s : State) (w : Nat), w < 256 → ∃ i, decodeTableWord 8 w = some i ∧ i.format = .mhdr ∧
    step (s.withFetchWord 8 w) = exec i (State.invalidate { s.withFetchWord 8 w with moves := s.moves }))

/-! ### The whole machine -/

/-- Every instruction completes in every state: no command is stuck or refused. -/
def Obligations.EveryInstructionCompletes : Prop :=
  ∀ (i : Instr) (s : State), ∃ t, exec i s = .next t

/-- The reset state has the invariant. -/
def Obligations.InvariantAtReset : Prop := Inv State.reset

/-- The invariant is kept by every step, from every state that has it. -/
def Obligations.InvariantKeptByStep : Prop :=
  ∀ (s t : State), Inv s → step s = .next t → Inv t

/-- From a state with the invariant every step answers a next state: the hang of R245 and every refusal are out of
reach. -/
def Obligations.StepNeverStops : Prop :=
  (∀ (s : State), Inv s → ∃ t, step s = .next t) ∧ (∀ (s : State) (r : Refusal), step s ≠ .refused r)

end
end

