-- ==== Sys2Proof/Laws/Memory.lean ====
section
/-! SUPPORT. The laws of byte memory: read after write, the canonical form is kept, slices. -/

namespace Sys2Proof.Machine

theorem Memory.wf_cons {a : Nat} {b : Byte} {m : Memory} :
    Memory.wf ((a, b) :: m) = true ↔ b ≠ Memory.unlisted ∧ (∀ c ∈ m, a < c.1) ∧ Memory.wf m = true := by
  simp [Memory.wf, and_assoc]

/-- Below every listed address a memory reads as unlisted. -/
theorem Memory.read_of_below : ∀ {m : Memory} {a : Nat}, (∀ c ∈ m, a < c.1) → m.read a = Memory.unlisted
  | [], _, _ => rfl
  | (k, b) :: m, a, h => by
    have hk : a < k := h (k, b) (by simp)
    rw [Memory.read, if_neg (by omega)]
    exact Memory.read_of_below (fun c hc => h c (List.mem_cons_of_mem _ hc))

theorem Memory.read_write_same : ∀ {m : Memory} (a : Nat) (b : Byte), Memory.wf m = true → (m.write a b).read a = b
  | [], a, b, _ => by
    by_cases hb : b = Memory.unlisted <;> simp [Memory.write, Memory.read, hb]
  | (k, c) :: m, a, b, h => by
    obtain ⟨-, hlt, hm⟩ := Memory.wf_cons.mp h
    unfold Memory.write
    split
    · rename_i hak
      split
      · rename_i hb
        rw [Memory.read, if_neg (by omega), hb]
        exact Memory.read_of_below (fun c hc => Nat.lt_trans hak (hlt c hc))
      · simp [Memory.read]
    · split
      · rename_i hak
        split
        · rename_i hb
          rw [hb, hak]; exact Memory.read_of_below hlt
        · simp [Memory.read]
      · rename_i _ hne
        rw [Memory.read, if_neg (by omega)]
        exact Memory.read_write_same a b hm

theorem Memory.read_write_other : ∀ {m : Memory} {a x : Nat} (b : Byte), x ≠ a → (m.write a b).read x = m.read x
  | [], a, x, b, h => by
    by_cases hb : b = Memory.unlisted
    · simp [Memory.write, hb]
    · simp [Memory.write, Memory.read, hb, h.symm]
  | (k, c) :: m, a, x, b, h => by
    unfold Memory.write
    split
    · split
      · rfl
      · rw [Memory.read, if_neg h.symm]
    · split
      · rename_i hak
        split
        · rw [Memory.read, if_neg (by omega)]
        · rw [Memory.read, Memory.read, if_neg h.symm, if_neg (by omega)]
      · rw [Memory.read, Memory.read]
        split
        · rfl
        · exact Memory.read_write_other b h

/-- The addresses listed after a write are the old ones and the one written. -/
theorem Memory.mem_write : ∀ {m : Memory} {a : Nat} {b : Byte} {c : Host.Cell},
    c ∈ m.write a b → c.1 = a ∨ c ∈ m
  | [], a, b, c, h => by
    unfold Memory.write at h
    split at h <;> simp_all
  | (k, d) :: m, a, b, c, h => by
    unfold Memory.write at h
    split at h
    · split at h
      · exact .inr h
      · rcases List.mem_cons.mp h with rfl | h
        · exact .inl rfl
        · exact .inr h
    · split at h
      · split at h
        · exact .inr (List.mem_cons_of_mem _ h)
        · rcases List.mem_cons.mp h with rfl | h
          · exact .inl rfl
          · exact .inr (List.mem_cons_of_mem _ h)
      · rcases List.mem_cons.mp h with rfl | h
        · exact .inr (by simp)
        · rcases Memory.mem_write h with h | h
          · exact .inl h
          · exact .inr (List.mem_cons_of_mem _ h)

/-- A write keeps the canonical form. -/
theorem Memory.wf_write : ∀ {m : Memory} (a : Nat) (b : Byte), Memory.wf m = true → Memory.wf (m.write a b) = true
  | [], a, b, _ => by
    by_cases hb : b = Memory.unlisted
    · simp [Memory.write, hb, Memory.wf]
    · simp [Memory.write, hb, Memory.wf]
  | (k, c) :: m, a, b, h => by
    obtain ⟨hc, hlt, hm⟩ := Memory.wf_cons.mp h
    unfold Memory.write
    split
    · rename_i hak
      split
      · exact h
      · rename_i hb
        refine Memory.wf_cons.mpr ⟨hb, fun x hx => ?_, h⟩
        rcases List.mem_cons.mp hx with rfl | hx
        · exact hak
        · exact Nat.lt_trans hak (hlt x hx)
    · split
      · rename_i hak
        split
        · exact hm
        · rename_i hb
          exact Memory.wf_cons.mpr ⟨hb, hak ▸ hlt, hm⟩
      · refine Memory.wf_cons.mpr ⟨hc, fun x hx => ?_, Memory.wf_write a b hm⟩
        rcases Memory.mem_write hx with hx | hx
        · omega
        · exact hlt x hx

theorem Memory.wf_writeBytes : ∀ {m : Memory} (a : Nat) (bs : List Byte),
    Memory.wf m = true → Memory.wf (m.writeBytes a bs) = true
  | _, _, [], h => h
  | _, a, b :: bs, h => Memory.wf_writeBytes (a + 1) bs (Memory.wf_write a b h)

/-- Writing consecutive bytes leaves every address outside them alone. -/
theorem Memory.read_writeBytes_other : ∀ {m : Memory} {a x : Nat} (bs : List Byte),
    (x < a ∨ a + bs.length ≤ x) → (m.writeBytes a bs).read x = m.read x
  | _, _, _, [], _ => rfl
  | m, a, x, b :: bs, h => by
    simp only [List.length_cons] at h
    rw [Memory.writeBytes, Memory.read_writeBytes_other bs (by omega), Memory.read_write_other b (by omega)]

/-- Writing consecutive bytes puts each at its place. -/
theorem Memory.read_writeBytes_same : ∀ {m : Memory} {a : Nat} (bs : List Byte) (i : Nat) (hi : i < bs.length),
    Memory.wf m = true → (m.writeBytes a bs).read (a + i) = bs[i]
  | m, a, b :: bs, 0, _, h => by
    rw [Memory.writeBytes, Memory.read_writeBytes_other bs (by omega)]
    exact Memory.read_write_same a b h
  | m, a, b :: bs, i + 1, hi, h => by
    have := Memory.read_writeBytes_same (a := a + 1) bs i (by simpa using hi) (Memory.wf_write a b h)
    rw [Memory.writeBytes, show a + (i + 1) = a + 1 + i by omega, this]
    rfl

/-- The addresses listed after writing consecutive bytes. -/
theorem Memory.mem_writeBytes : ∀ (bs : List Byte) {m : Memory} {a : Nat} {c : Host.Cell},
    c ∈ m.writeBytes a bs → (a ≤ c.1 ∧ c.1 < a + bs.length) ∨ c ∈ m
  | [], _, _, _, h => .inr h
  | b :: bs, m, a, c, h => by
    have h' : c ∈ (m.write a b).writeBytes (a + 1) bs := h
    simp only [List.length_cons]
    rcases Memory.mem_writeBytes bs h' with h' | h'
    · exact .inl (by omega)
    · rcases Memory.mem_write h' with h' | h'
      · exact .inl (by omega)
      · exact .inr h'

@[simp] theorem Memory.length_slice : ∀ (m : Memory) (a n : Nat), (m.slice a n).length = n
  | _, _, 0 => rfl
  | m, a, n + 1 => by simp [Memory.slice, Memory.length_slice m (a + 1) n]

/-- A slice in two parts. -/
theorem Memory.slice_add (m : Memory) : ∀ (a n k : Nat), m.slice a (n + k) = m.slice a n ++ m.slice (a + n) k
  | a, 0, k => by simp [Memory.slice]
  | a, n + 1, k => by
    rw [show n + 1 + k = (n + k) + 1 by omega, Memory.slice, Memory.slice, Memory.slice_add m (a + 1) n k,
      show a + 1 + n = a + (n + 1) by omega]
    rfl

theorem Memory.getElem_slice (m : Memory) : ∀ (a n i : Nat) (h : i < (m.slice a n).length),
    (m.slice a n)[i] = m.read (a + i)
  | a, 0, i, h => by simp at h
  | a, n + 1, 0, _ => rfl
  | a, n + 1, i + 1, h => by
    have := Memory.getElem_slice m (a + 1) n i (by simpa using h)
    simp only [Memory.slice, List.getElem_cons_succ, this]
    congr 1; omega

theorem Memory.drop_slice (m : Memory) : ∀ (a n k : Nat), (m.slice a n).drop k = m.slice (a + k) (n - k)
  | a, n, 0 => by simp
  | a, 0, k + 1 => by simp [Memory.slice]
  | a, n + 1, k + 1 => by
    rw [Memory.slice, List.drop_succ_cons, Memory.drop_slice m (a + 1) n k]
    congr 1 <;> omega

theorem Memory.take_slice (m : Memory) : ∀ (a n k : Nat), k ≤ n → (m.slice a n).take k = m.slice a k
  | a, n, 0, _ => by simp [Memory.slice]
  | a, 0, k + 1, h => by omega
  | a, n + 1, k + 1, h => by
    rw [Memory.slice, List.take_succ_cons, Memory.take_slice m (a + 1) n k (by omega)]
    rfl

/-- Two memories have equal slices iff they agree on every address of them. -/
theorem Memory.slice_congr {m m' : Memory} : ∀ {a n : Nat},
    m.slice a n = m'.slice a n ↔ ∀ i, i < n → m.read (a + i) = m'.read (a + i)
  | a, 0 => by simp [Memory.slice]
  | a, n + 1 => by
    simp only [Memory.slice, List.cons.injEq, Memory.slice_congr]
    constructor
    · rintro ⟨h0, h⟩ i hi
      cases i with
      | zero => exact h0
      | succ i => rw [show a + (i + 1) = a + 1 + i by omega]; exact h i (by omega)
    · intro h
      refine ⟨h 0 (by omega), fun i hi => ?_⟩
      rw [show a + 1 + i = a + (i + 1) by omega]; exact h (i + 1) (by omega)

end Sys2Proof.Machine
end

