-- ==== Sys2Proof/Laws/Bytes.lean ====
section
/-! SUPPORT. The laws of le, lebytes, slices of byte sequences and byte-array registers. -/

namespace Sys2Proof.Machine

@[simp] theorem length_lebytes : ∀ (n v : Nat), (lebytes n v).length = n
  | 0, _ => rfl
  | n + 1, v => by simp [lebytes, length_lebytes n]

/-- An n-byte sequence reads as a number below 256^n. -/
theorem le_lt : ∀ (bs : List Byte), le bs < 256 ^ bs.length
  | [] => by simp [le]
  | b :: bs => by
    have h := le_lt bs
    have hb := b.isLt
    simp only [le, List.length_cons, Nat.pow_succ]
    omega

/-- lebytes inverts le (R43). -/
theorem lebytes_le : ∀ (bs : List Byte), lebytes bs.length (le bs) = bs
  | [] => rfl
  | b :: bs => by
    have hb := b.isLt
    have h1 : (b.toNat + 256 * le bs) / 256 = le bs := by omega
    have h2 : BitVec.ofNat 8 (b.toNat + 256 * le bs) = b := by
      apply BitVec.eq_of_toNat_eq
      rw [BitVec.toNat_ofNat]
      omega
    simp only [le, List.length_cons, lebytes, h1, h2, lebytes_le bs]

/-- An n-byte integer register of 8n bits gives back the bytes it was read from. -/
theorem lebytes_register {bs : List Byte} {n w : Nat} (hn : bs.length = n) (hw : w = 8 * n) :
    lebytes n (BitVec.ofNat w (le bs)).toNat = bs := by
  have h : le bs % 2 ^ w = le bs := by
    apply Nat.mod_eq_of_lt
    have := le_lt bs
    rw [hn] at this
    rw [hw, Nat.pow_mul]
    exact this
  rw [BitVec.toNat_ofNat, h, ← hn, lebytes_le]

@[simp] theorem length_sub (bs : List Byte) (a n : Nat) : (sub bs a n).length = min n (bs.length - a) := by
  simp [sub]

/-- A slice of a slice of memory is a slice of memory. -/
theorem sub_slice (m : Memory) (a n i k : Nat) (h : i + k ≤ n) : sub (m.slice a n) i k = m.slice (a + i) k := by
  rw [sub, Memory.drop_slice, Memory.take_slice _ _ _ _ (by omega)]

theorem byteAt_slice (m : Memory) (a n i : Nat) (h : i < n) : byteAt (m.slice a n) i = m.read (a + i) := by
  have hl : i < (m.slice a n).length := by simpa using h
  rw [byteAt, List.getD_eq_getElem _ _ hl, Memory.getElem_slice]

/-- What a byte-array register holds. -/
theorem toList_fit (n : Nat) (bs : List Byte) :
    (fit n bs).toList = bs.take n ++ List.replicate (n - bs.length) 0 := by
  simp [fit]

theorem toList_fit_of_length {n : Nat} {bs : List Byte} (h : bs.length = n) : (fit n bs).toList = bs := by
  rw [toList_fit, List.take_of_length_le (by omega)]
  simp [h]

/-- The first elements of a byte-array register are the sequence put into it. -/
theorem take_toList_fit {n : Nat} {bs : List Byte} (h : bs.length ≤ n) : (fit n bs).toList.take bs.length = bs := by
  rw [toList_fit, List.take_of_length_le h]
  simp

/-- Two bytes of a register as wire bytes. -/
theorem sub_one (bs : List Byte) (a : Nat) (h : a < bs.length) : sub bs a 1 = [byteAt bs a] := by
  rw [sub, byteAt, List.getD_eq_getElem _ _ h, List.take_one_drop_eq_of_lt_length h]
  rfl

/-- A sequence in two parts. -/
theorem sub_append (bs : List Byte) (a n k : Nat) : sub bs a n ++ sub bs (a + n) k = sub bs a (n + k) := by
  simp [sub, ← List.drop_drop, ← List.take_add]

end Sys2Proof.Machine
end

