-- ==== Sys2Proof/Laws/Cmac.lean ====
section
/-! SUPPORT. The lengths of the pieces of AES-CMAC. -/

namespace Sys2Proof.Machine

/-- Length of an exclusive or of blocks. -/
theorem length_xorBlock (a b : List Byte) : (xorBlock a b).length = min a.length b.length := by simp [xorBlock]

/-- ShiftRows gives 16 bytes. -/
theorem length_shiftRows (s : List Byte) : (shiftRows s).length = 16 := by simp [shiftRows]

/-- MixColumns keeps 16 bytes. -/
theorem length_mixColumns (s : List Byte) (h : s.length = 16) : (mixColumns s).length = 16 := by
  match s, h with
  | [a0, a1, a2, a3, a4, a5, a6, a7, a8, a9, b0, b1, b2, b3, b4, b5], _ => rfl

/-- A round key has 16 bytes. -/
theorem length_nextRoundKey (r : Byte) (k : List Byte) (h : k.length = 16) : (nextRoundKey r k).length = 16 := by
  simp [nextRoundKey, length_xorBlock, h]

/-- The rounds keep 16 bytes. -/
theorem length_aesRounds : ∀ (rc k s : List Byte), k.length = 16 → s.length = 16 → (aesRounds rc k s).length = 16
  | [], _, _, _, h => h
  | [r], k, s, h, _ => by simp only [aesRounds, length_xorBlock, length_shiftRows, length_nextRoundKey _ _ h]; rfl
  | r :: r2 :: rc, k, s, h, h' => by
    rw [aesRounds]
    exact length_aesRounds (r2 :: rc) _ _ (length_nextRoundKey _ _ h) (by rw [length_xorBlock,
        length_nextRoundKey _ _ h, length_mixColumns _ (length_shiftRows _)]; rfl)
    simp

/-- AES gives 16 bytes. -/
theorem length_aes (k x : List Byte) (h : k.length = 16) (h' : x.length = 16) : (aes k x).length = 16 :=
  length_aesRounds _ _ _ h (by rw [length_xorBlock, h, h']; rfl)

/-- The shift keeps the length. -/
theorem length_shiftLeftOne : ∀ l : List Byte, (shiftLeftOne l).length = l.length
  | [] => rfl
  | [_] => rfl
  | b :: c :: r => by simp [shiftLeftOne, length_shiftLeftOne (c :: r)]

/-- Doubling keeps 16 bytes. -/
theorem length_dbl (x : List Byte) (h : x.length = 16) : (dbl x).length = 16 := by
  unfold dbl; split <;> simp [length_xorBlock, length_shiftLeftOne, h]

/-- The last block has 16 bytes. -/
theorem length_cmacLast (k1 k2 m : List Byte) (h1 : k1.length = 16) (h2 : k2.length = 16)
    (hm : m.length ≤ 16) : (cmacLast k1 k2 m).length = 16 := by
  unfold cmacLast; split
  · simp [length_xorBlock, *]
  · rw [length_xorBlock, h2]; simp; omega

end Sys2Proof.Machine
end

