-- ==== Sys2Proof/Laws/Decode.lean ====
section
/-! SUPPORT. The fields of the encoded words, read back. -/

namespace Sys2Proof.Machine

@[simp] theorem commandWord_op (op : BitVec 4) (d : Byte) : (commandWord op d).extractLsb' 8 4 = op := by
  revert op d; decide +kernel

@[simp] theorem commandWord_data (op : BitVec 4) (d : Byte) : (commandWord op d).extractLsb' 0 8 = d := by
  revert op d; decide +kernel

/-- A command word is its code and its data bits (R71). -/
theorem commandWord_split (cw : CmdWord) : ∃ op d, cw = commandWord op d := by
  refine ⟨cw.extractLsb' 8 4, cw.extractLsb' 0 8, ?_⟩
  revert cw; decide +kernel

/-- The sixteen values of a command code. -/
theorem opcode_cases (op : BitVec 4) :
    op = 0x0 ∨ op = 0x1 ∨ op = 0x2 ∨ op = 0x3 ∨ op = 0x4 ∨ op = 0x5 ∨ op = 0x6 ∨ op = 0x7 ∨ op = 0x8 ∨ op = 0x9 ∨
      op = 0xA ∨ op = 0xB ∨ op = 0xC ∨ op = 0xD ∨ op = 0xE ∨ op = 0xF := by
  revert op; decide

/-- The decoder on a word given by its fields. -/
theorem decodeCommand_commandWord (op : BitVec 4) (d : Byte) (key : Key) :
    decodeCommand (commandWord op d) key = match op.toNat with
      | 0x0 => .nop d
      | 0x1 => .clear d
      | 0x2 => .push d
      | 0x3 => .parse d
      | 0x4 => .calcmic d key.toList
      | 0x5 => .verify d key.toList
      | 0x6 => .serialize d
      | 0x7 => .reserved7 d
      | 0x8 => .reserved8 d
      | 0x9 => .reserved9 d
      | 0xA => .reservedA d
      | 0xB => .reservedB d
      | 0xC => .reservedC d
      | 0xD => .reservedD d
      | 0xE => .reservedE d
      | _ => .reservedF d := by
  rcases opcode_cases op with rfl | rfl | rfl | rfl | rfl | rfl | rfl | rfl | rfl | rfl | rfl | rfl | rfl | rfl | rfl | rfl <;>
    simp only [decodeCommand, commandWord_op, commandWord_data] <;> rfl

/-- The eight single and four low bits of a frame-control byte put together by fctrlByte. -/
theorem fctrlByte_fields (b7 b6 b5 b4 : Bool) (n : BitVec 4) :
    (fctrlByte b7 b6 b5 b4 n).getLsbD 7 = b7 ∧ (fctrlByte b7 b6 b5 b4 n).getLsbD 6 = b6 ∧
    (fctrlByte b7 b6 b5 b4 n).getLsbD 5 = b5 ∧ (fctrlByte b7 b6 b5 b4 n).getLsbD 4 = b4 ∧
    (fctrlByte b7 b6 b5 b4 n).extractLsb' 0 4 = n := by
  revert n; cases b7 <;> cases b6 <;> cases b5 <;> cases b4 <;> decide

/-- A byte is the frame-control byte of its own bits. -/
theorem fctrlByte_split (b : Byte) :
    fctrlByte (b.getLsbD 7) (b.getLsbD 6) (b.getLsbD 5) (b.getLsbD 4) (b.extractLsb' 0 4) = b := by
  revert b; decide

/-- A byte is the MHdr byte of its type code and its low bits (R61). -/
theorem mhdrByte_split (b : Byte) : mhdrByte (b.extractLsb' 5 3) (b.extractLsb' 0 5) = b := by
  revert b; decide

theorem mhdrByte_fields (c : BitVec 3) (low : BitVec 5) :
    (mhdrByte c low).extractLsb' 5 3 = c ∧ (mhdrByte c low).extractLsb' 0 5 = low := by
  revert c low; decide

/-- The 16 bytes of a key are taken as they stand. -/
theorem takeKey_append (key rest : List Byte) (h : key.length = 16) : ∃ k : Key, takeKey (key ++ rest) = some (k,
    rest) ∧ k.toList = key := by
  unfold takeKey
  have : 16 ≤ (key ++ rest).length := by simp; omega
  rw [dif_pos this]
  refine ⟨⟨key.toArray, by simp [h]⟩, ?_, by simp⟩
  simp [← h]

/-- The decoder on the carrier of a command word. -/
theorem decode_commandBytes (op : BitVec 4) (d : Byte) (rest : List Byte) : decode .cmd (commandBytes op d ++ rest) =
   (if takesKey (commandWord op d) then match takeKey rest with
        | some (key, rest') => .ok (decodeCommand (commandWord op d) key, rest')
        | none => .error .keyShort
    else .ok (decodeCommand (commandWord op d) zeroKey, rest)) := by
  have h1 : ∀ op : BitVec 4, (0#4 ++ op : BitVec 8).toNat < 16 := by decide
  have h2 : ∀ op : BitVec 4, (0#4 ++ op : BitVec 8).extractLsb' 0 4 = op := by decide
  simp only [commandBytes, List.cons_append, List.nil_append, decode, h1, if_true, h2]
  rfl

end Sys2Proof.Machine
end

