-- ==== Sys2Proof/Laws/Commands.lean ====
section
/-! SUPPORT. What each command, and each MHdr row, can do, said once. -/

namespace Sys2Proof.Machine

/-- What running a command word can do, by its code (R72). -/
theorem command_cases (cw : CmdWord) (key : Key) (s t : State) (h : exec (decodeCommand cw key) s = .next t) :
  (cw.extractLsb' 8 4 = 0 ∧ t = s) ∨ (cw.extractLsb' 8 4 = 1 ∧ execClear (cw.extractLsb' 0 8) s = .next t) ∨
  (cw.extractLsb' 8 4 = 2 ∧ execPush (cw.extractLsb' 0 8) s = .next t) ∨
  (cw.extractLsb' 8 4 = 3 ∧ t = s.parse) ∨
  (cw.extractLsb' 8 4 = 4 ∧ execCalcmic (cw.extractLsb' 0 8) key.toList s = .next t) ∨
  (cw.extractLsb' 8 4 = 5 ∧ execVerify (cw.extractLsb' 0 8) key.toList s = .next t) ∨
  (cw.extractLsb' 8 4 = 6 ∧ execSerialize (cw.extractLsb' 0 8) s = .next t) ∨
  (7 ≤ (cw.extractLsb' 8 4).toNat ∧ t = s.badCommand (cw.extractLsb' 8 4)) := by
  obtain ⟨op, d, rfl⟩ := commandWord_split cw
  rw [decodeCommand_commandWord] at h
  simp only [commandWord_op, commandWord_data]
  have nx : ∀ x : State, Host.Outcome.next (φ := Fault) (ρ := Refusal) x = .next t → t = x :=
      fun x hx => (Host.Outcome.next.inj hx).symm
  rcases opcode_cases op with rfl | rfl | rfl | rfl | rfl | rfl | rfl | rfl | rfl | rfl | rfl | rfl | rfl | rfl | rfl | rfl
  · exact .inl ⟨rfl, nx _ h⟩
  · exact .inr (.inl ⟨rfl, h⟩)
  · exact .inr (.inr (.inl ⟨rfl, h⟩))
  · exact .inr (.inr (.inr (.inl ⟨rfl, nx _ h⟩)))
  · exact .inr (.inr (.inr (.inr (.inl ⟨rfl, h⟩))))
  · exact .inr (.inr (.inr (.inr (.inr (.inl ⟨rfl, h⟩)))))
  · exact .inr (.inr (.inr (.inr (.inr (.inr (.inl ⟨rfl, h⟩))))))
  all_goals exact .inr (.inr (.inr (.inr (.inr (.inr (.inr ⟨by decide, nx _ h⟩))))))

/-- Everything CLEAR does (R92). -/
theorem execClear_eq (d : Byte) (s t : State) (h : execClear d s = .next t) :
    t = { s.invalidate with len := 0, ovf := false } :=
  (Host.Outcome.next.inj h).symm

/-- Everything PUSH can do (R93). -/
theorem execPush_cases (d : Byte) (s t : State) (h : execPush d s = .next t) :
  (s.len.toNat < s.config.phyMax ∧
    t = { s.invalidate with fb := s.fb.write s.len.toNat d, len := BitVec.ofNat 9 (s.len.toNat + 1) }) ∨
  (s.config.phyMax ≤ s.len.toNat ∧ t = { s.invalidate with ovf := true }) := by
  unfold execPush at h
  split at h
  · exact .inl ⟨‹_›, (Host.Outcome.next.inj h).symm⟩
  · exact .inr ⟨by omega, (Host.Outcome.next.inj h).symm⟩

/-- Everything the issue step of CALCMIC can do (R166, R167). -/
theorem execCalcmic_cases (d : Byte) (k : List Byte) (s t : State) (h : execCalcmic d k s = .next t) :
  (s.variant = .noVariant ∧ t = s.clearMic.raise ⟨.unimplemented, 0⟩) ∨ (s.variant ≠ .noVariant ∧
      t = ({ s.clearMic with err := .noError, errsub := 0 } : State).request .calc k) := by
  unfold execCalcmic at h
  split at h
  · exact .inl ⟨‹_›, (Host.Outcome.next.inj h).symm⟩
  · exact .inr ⟨‹_›, (Host.Outcome.next.inj h).symm⟩

/-- Everything the issue step of VERIFY can do (R169, R170). -/
theorem execVerify_cases (d : Byte) (k : List Byte) (s t : State) (h : execVerify d k s = .next t) :
  (s.variant = .noVariant ∧ t = s.clearMic) ∨ (s.variant ≠ .noVariant ∧ t = s.clearMic.request .verify k) := by
  unfold execVerify at h
  split at h
  · exact .inl ⟨‹_›, (Host.Outcome.next.inj h).symm⟩
  · exact .inr ⟨‹_›, (Host.Outcome.next.inj h).symm⟩

/-- Everything SERIALIZE can do (R195, R198). -/
theorem execSerialize_cases (d : Byte) (s t : State) (h : execSerialize d s = .next t) :
  (s.variant = .noVariant ∧ t = { s with olen := 0 }) ∨ (s.variant ≠ .noVariant ∧
    t = { s with ob := s.ob.writeBytes 0 s.ser, olen := BitVec.ofNat 9 s.ser.length }) := by
  unfold execSerialize at h
  split at h
  · exact .inl ⟨‹_›, (Host.Outcome.next.inj h).symm⟩
  · exact .inr ⟨‹_›, (Host.Outcome.next.inj h).symm⟩

/-- The row an MHdr byte decodes to is the branch the dispatcher takes on it (R130). -/
theorem exec_decodeMhdr (s : State) (b : Byte) : exec (decodeMhdr b) s = .next (s.dispatch b) := by
  have hb := mhdrByte_split b
  unfold decodeMhdr State.dispatch mtypeOf
  generalize b.extractLsb' 5 3 = c at *
  generalize b.extractLsb' 0 5 = low at *
  subst hb
  have hc : c = 0 ∨ c = 1 ∨ c = 2 ∨ c = 3 ∨ c = 4 ∨ c = 5 ∨ c = 6 ∨ c = 7 := by revert c; decide
  rcases hc with rfl | rfl | rfl | rfl | rfl | rfl | rfl | rfl <;> rfl

/-- The field form of a data message. -/
theorem fieldMsg_data (t : State) (h1 : t.variant ≠ .noVariant) (h2 : t.variant ≠ .joinRequest)
    (h3 : t.variant ≠ .joinAccept) : t.fieldMsg = t.dataMsg := by
  unfold State.fieldMsg; revert h1 h2 h3; cases t.variant <;> simp

/-- The MIC input of a data message. -/
theorem micIn_data (t : State) (h1 : t.variant ≠ .noVariant) (h2 : t.variant ≠ .joinRequest)
    (h3 : t.variant ≠ .joinAccept) : t.micIn = t.b0 ++ t.fieldMsg := by
  unfold State.micIn; revert h1 h2 h3; cases t.variant <;> simp

/-- The B0 block has 16 bytes (R164). -/
theorem length_b0 (s : State) : s.b0.length = 16 := by simp [State.b0]

end Sys2Proof.Machine
end

