-- ==== Sys2Proof/Laws/State.lean ====
section
/-! SUPPORT. One lemma for each field of each named update of State and of Results, so that no proof unfolds a record
update. -/

namespace Sys2Proof.Machine

section
variable (s : State)

/-! INVALIDATE() -/

@[simp] theorem State.invalidate_fb : (s.invalidate).fb = s.fb := rfl
@[simp] theorem State.invalidate_len : (s.invalidate).len = s.len := rfl
@[simp] theorem State.invalidate_ovf : (s.invalidate).ovf = s.ovf := rfl
@[simp] theorem State.invalidate_variant : (s.invalidate).variant = .noVariant := rfl
@[simp] theorem State.invalidate_results : (s.invalidate).results = Results.reset := rfl
@[simp] theorem State.invalidate_err : (s.invalidate).err = .noError := rfl
@[simp] theorem State.invalidate_errsub : (s.invalidate).errsub = 0 := rfl
@[simp] theorem State.invalidate_cmic : (s.invalidate).cmic = Vector.replicate 4 0 := rfl
@[simp] theorem State.invalidate_micdone : (s.invalidate).micdone = false := rfl
@[simp] theorem State.invalidate_micok : (s.invalidate).micok = false := rfl
@[simp] theorem State.invalidate_ob : (s.invalidate).ob = s.ob := rfl
@[simp] theorem State.invalidate_olen : (s.invalidate).olen = 0 := rfl
@[simp] theorem State.invalidate_busy : (s.invalidate).busy = s.busy := rfl
@[simp] theorem State.invalidate_pend : (s.invalidate).pend = s.pend := rfl
@[simp] theorem State.invalidate_config : (s.invalidate).config = s.config := rfl
@[simp] theorem State.invalidate_moves : (s.invalidate).moves = s.moves := rfl
@[simp] theorem State.invalidate_draws : (s.invalidate).draws = s.draws := rfl
@[simp] theorem State.invalidate_rdData : (s.invalidate).rdData = s.rdData := rfl

/-! raise -/

@[simp] theorem State.raise_fb (e : Raise) : (s.raise e).fb = s.fb := rfl
@[simp] theorem State.raise_len (e : Raise) : (s.raise e).len = s.len := rfl
@[simp] theorem State.raise_ovf (e : Raise) : (s.raise e).ovf = s.ovf := rfl
@[simp] theorem State.raise_variant (e : Raise) : (s.raise e).variant = s.variant := rfl
@[simp] theorem State.raise_results (e : Raise) : (s.raise e).results = s.results := rfl
@[simp] theorem State.raise_err (e : Raise) : (s.raise e).err = e.kind := rfl
@[simp] theorem State.raise_errsub (e : Raise) : (s.raise e).errsub = e.sub := rfl
@[simp] theorem State.raise_cmic (e : Raise) : (s.raise e).cmic = s.cmic := rfl
@[simp] theorem State.raise_micdone (e : Raise) : (s.raise e).micdone = s.micdone := rfl
@[simp] theorem State.raise_micok (e : Raise) : (s.raise e).micok = s.micok := rfl
@[simp] theorem State.raise_ob (e : Raise) : (s.raise e).ob = s.ob := rfl
@[simp] theorem State.raise_olen (e : Raise) : (s.raise e).olen = s.olen := rfl
@[simp] theorem State.raise_busy (e : Raise) : (s.raise e).busy = s.busy := rfl
@[simp] theorem State.raise_pend (e : Raise) : (s.raise e).pend = s.pend := rfl
@[simp] theorem State.raise_config (e : Raise) : (s.raise e).config = s.config := rfl
@[simp] theorem State.raise_moves (e : Raise) : (s.raise e).moves = s.moves := rfl
@[simp] theorem State.raise_draws (e : Raise) : (s.raise e).draws = s.draws := rfl
@[simp] theorem State.raise_rdData (e : Raise) : (s.raise e).rdData = s.rdData := rfl

/-! The success commit of PARSE -/

@[simp] theorem State.commit_fb (m : Byte) (v : Variant) (f : Results → Results) : (s.commit m v f).fb = s.fb := rfl
@[simp] theorem State.commit_len (m : Byte) (v : Variant) (f : Results → Results) : (s.commit m v f).len = s.len := rfl
@[simp] theorem State.commit_ovf (m : Byte) (v : Variant) (f : Results → Results) : (s.commit m v f).ovf = s.ovf := rfl
@[simp] theorem State.commit_variant (m : Byte) (v : Variant) (f : Results → Results) : (s.commit m v f).variant = v := rfl
@[simp] theorem State.commit_results (m : Byte) (v : Variant) (f : Results → Results) : (s.commit m v f).results = f { s.results with
      mhdr := m, mtype := mtypeOf m, maclen := BitVec.ofNat 9 (s.len.toNat - 5), mic := fit 4 s.trailer } := rfl
@[simp] theorem State.commit_err (m : Byte) (v : Variant) (f : Results → Results) : (s.commit m v f).err = .noError := rfl
@[simp] theorem State.commit_errsub (m : Byte) (v : Variant) (f : Results → Results) : (s.commit m v f).errsub = 0 := rfl
@[simp] theorem State.commit_cmic (m : Byte) (v : Variant) (f : Results → Results) : (s.commit m v f).cmic = s.cmic := rfl
@[simp] theorem State.commit_micdone (m : Byte) (v : Variant) (f : Results → Results) : (s.commit m v f).micdone = s.micdone := rfl
@[simp] theorem State.commit_micok (m : Byte) (v : Variant) (f : Results → Results) : (s.commit m v f).micok = s.micok := rfl
@[simp] theorem State.commit_ob (m : Byte) (v : Variant) (f : Results → Results) : (s.commit m v f).ob = s.ob := rfl
@[simp] theorem State.commit_olen (m : Byte) (v : Variant) (f : Results → Results) : (s.commit m v f).olen = s.olen := rfl
@[simp] theorem State.commit_busy (m : Byte) (v : Variant) (f : Results → Results) : (s.commit m v f).busy = s.busy := rfl
@[simp] theorem State.commit_pend (m : Byte) (v : Variant) (f : Results → Results) : (s.commit m v f).pend = s.pend := rfl
@[simp] theorem State.commit_config (m : Byte) (v : Variant) (f : Results → Results) : (s.commit m v f).config = s.config := rfl
@[simp] theorem State.commit_moves (m : Byte) (v : Variant) (f : Results → Results) : (s.commit m v f).moves = s.moves := rfl
@[simp] theorem State.commit_draws (m : Byte) (v : Variant) (f : Results → Results) : (s.commit m v f).draws = s.draws := rfl
@[simp] theorem State.commit_rdData (m : Byte) (v : Variant) (f : Results → Results) : (s.commit m v f).rdData = s.rdData := rfl

/-! Clearing the MIC results -/

@[simp] theorem State.clearMic_fb : (s.clearMic).fb = s.fb := rfl
@[simp] theorem State.clearMic_len : (s.clearMic).len = s.len := rfl
@[simp] theorem State.clearMic_ovf : (s.clearMic).ovf = s.ovf := rfl
@[simp] theorem State.clearMic_variant : (s.clearMic).variant = s.variant := rfl
@[simp] theorem State.clearMic_results : (s.clearMic).results = s.results := rfl
@[simp] theorem State.clearMic_err : (s.clearMic).err = s.err := rfl
@[simp] theorem State.clearMic_errsub : (s.clearMic).errsub = s.errsub := rfl
@[simp] theorem State.clearMic_cmic : (s.clearMic).cmic = Vector.replicate 4 0 := rfl
@[simp] theorem State.clearMic_micdone : (s.clearMic).micdone = false := rfl
@[simp] theorem State.clearMic_micok : (s.clearMic).micok = false := rfl
@[simp] theorem State.clearMic_ob : (s.clearMic).ob = s.ob := rfl
@[simp] theorem State.clearMic_olen : (s.clearMic).olen = s.olen := rfl
@[simp] theorem State.clearMic_busy : (s.clearMic).busy = s.busy := rfl
@[simp] theorem State.clearMic_pend : (s.clearMic).pend = s.pend := rfl
@[simp] theorem State.clearMic_config : (s.clearMic).config = s.config := rfl
@[simp] theorem State.clearMic_moves : (s.clearMic).moves = s.moves := rfl
@[simp] theorem State.clearMic_draws : (s.clearMic).draws = s.draws := rfl
@[simp] theorem State.clearMic_rdData : (s.clearMic).rdData = s.rdData := rfl

/-! Sending a request -/

@[simp] theorem State.request_fb (k : MicKind) (key : List Byte) : (s.request k key).fb = s.fb := rfl
@[simp] theorem State.request_len (k : MicKind) (key : List Byte) : (s.request k key).len = s.len := rfl
@[simp] theorem State.request_ovf (k : MicKind) (key : List Byte) : (s.request k key).ovf = s.ovf := rfl
@[simp] theorem State.request_variant (k : MicKind) (key : List Byte) : (s.request k key).variant = s.variant := rfl
@[simp] theorem State.request_results (k : MicKind) (key : List Byte) : (s.request k key).results = s.results := rfl
@[simp] theorem State.request_err (k : MicKind) (key : List Byte) : (s.request k key).err = s.err := rfl
@[simp] theorem State.request_errsub (k : MicKind) (key : List Byte) : (s.request k key).errsub = s.errsub := rfl
@[simp] theorem State.request_cmic (k : MicKind) (key : List Byte) : (s.request k key).cmic = s.cmic := rfl
@[simp] theorem State.request_micdone (k : MicKind) (key : List Byte) : (s.request k key).micdone = s.micdone := rfl
@[simp] theorem State.request_micok (k : MicKind) (key : List Byte) : (s.request k key).micok = s.micok := rfl
@[simp] theorem State.request_ob (k : MicKind) (key : List Byte) : (s.request k key).ob = s.ob := rfl
@[simp] theorem State.request_olen (k : MicKind) (key : List Byte) : (s.request k key).olen = s.olen := rfl
@[simp] theorem State.request_busy (k : MicKind) (key : List Byte) : (s.request k key).busy = true := rfl
@[simp] theorem State.request_pend (k : MicKind) (key : List Byte) : (s.request k key).pend = some { kind := k, key := key, msg := s.micIn } := rfl
@[simp] theorem State.request_config (k : MicKind) (key : List Byte) : (s.request k key).config = s.config := rfl
@[simp] theorem State.request_moves (k : MicKind) (key : List Byte) : (s.request k key).moves = s.moves := rfl
@[simp] theorem State.request_draws (k : MicKind) (key : List Byte) : (s.request k key).draws = s.draws := rfl
@[simp] theorem State.request_rdData (k : MicKind) (key : List Byte) : (s.request k key).rdData = s.rdData := rfl

/-! The completion step -/

@[simp] theorem State.completeMic_fb (k : MicKind) (tag : List Byte) : (s.completeMic k tag).fb = s.fb := rfl
@[simp] theorem State.completeMic_len (k : MicKind) (tag : List Byte) : (s.completeMic k tag).len = s.len := rfl
@[simp] theorem State.completeMic_ovf (k : MicKind) (tag : List Byte) : (s.completeMic k tag).ovf = s.ovf := rfl
@[simp] theorem State.completeMic_variant (k : MicKind) (tag : List Byte) : (s.completeMic k tag).variant = s.variant := rfl
@[simp] theorem State.completeMic_results (k : MicKind) (tag : List Byte) : (s.completeMic k tag).results = s.results := rfl
@[simp] theorem State.completeMic_err (k : MicKind) (tag : List Byte) : (s.completeMic k tag).err = s.err := rfl
@[simp] theorem State.completeMic_errsub (k : MicKind) (tag : List Byte) : (s.completeMic k tag).errsub = s.errsub := rfl
@[simp] theorem State.completeMic_cmic (k : MicKind) (tag : List Byte) : (s.completeMic k tag).cmic = fit 4 tag := rfl
@[simp] theorem State.completeMic_micdone (k : MicKind) (tag : List Byte) : (s.completeMic k tag).micdone = true := rfl
@[simp] theorem State.completeMic_micok (k : MicKind) (tag : List Byte) : (s.completeMic k tag).micok = (match k with | .calc => false | .verify => decide (fit 4 tag = s.results.mic)) := rfl
@[simp] theorem State.completeMic_ob (k : MicKind) (tag : List Byte) : (s.completeMic k tag).ob = s.ob := rfl
@[simp] theorem State.completeMic_olen (k : MicKind) (tag : List Byte) : (s.completeMic k tag).olen = s.olen := rfl
@[simp] theorem State.completeMic_busy (k : MicKind) (tag : List Byte) : (s.completeMic k tag).busy = false := rfl
@[simp] theorem State.completeMic_pend (k : MicKind) (tag : List Byte) : (s.completeMic k tag).pend = none := rfl
@[simp] theorem State.completeMic_config (k : MicKind) (tag : List Byte) : (s.completeMic k tag).config = s.config := rfl
@[simp] theorem State.completeMic_moves (k : MicKind) (tag : List Byte) : (s.completeMic k tag).moves = s.moves := rfl
@[simp] theorem State.completeMic_draws (k : MicKind) (tag : List Byte) : (s.completeMic k tag).draws = s.draws := rfl
@[simp] theorem State.completeMic_rdData (k : MicKind) (tag : List Byte) : (s.completeMic k tag).rdData = s.rdData := rfl

/-! Reset -/

@[simp] theorem State.applyReset_fb : (s.applyReset).fb = State.reset.fb := rfl
@[simp] theorem State.applyReset_len : (s.applyReset).len = State.reset.len := rfl
@[simp] theorem State.applyReset_ovf : (s.applyReset).ovf = State.reset.ovf := rfl
@[simp] theorem State.applyReset_variant : (s.applyReset).variant = State.reset.variant := rfl
@[simp] theorem State.applyReset_results : (s.applyReset).results = State.reset.results := rfl
@[simp] theorem State.applyReset_err : (s.applyReset).err = State.reset.err := rfl
@[simp] theorem State.applyReset_errsub : (s.applyReset).errsub = State.reset.errsub := rfl
@[simp] theorem State.applyReset_cmic : (s.applyReset).cmic = State.reset.cmic := rfl
@[simp] theorem State.applyReset_micdone : (s.applyReset).micdone = State.reset.micdone := rfl
@[simp] theorem State.applyReset_micok : (s.applyReset).micok = State.reset.micok := rfl
@[simp] theorem State.applyReset_ob : (s.applyReset).ob = State.reset.ob := rfl
@[simp] theorem State.applyReset_olen : (s.applyReset).olen = State.reset.olen := rfl
@[simp] theorem State.applyReset_busy : (s.applyReset).busy = State.reset.busy := rfl
@[simp] theorem State.applyReset_pend : (s.applyReset).pend = State.reset.pend := rfl
@[simp] theorem State.applyReset_config : (s.applyReset).config = s.config := rfl
@[simp] theorem State.applyReset_moves : (s.applyReset).moves = s.moves := rfl
@[simp] theorem State.applyReset_draws : (s.applyReset).draws = s.draws := rfl
@[simp] theorem State.applyReset_rdData : (s.applyReset).rdData = s.rdData := rfl

end

section
variable (r : Results)

/-! The frame-control registers -/

@[simp] theorem Results.withFrameControl_mhdr (c : FrameControl) : (r.withFrameControl c).mhdr = r.mhdr := rfl
@[simp] theorem Results.withFrameControl_mtype (c : FrameControl) : (r.withFrameControl c).mtype = r.mtype := rfl
@[simp] theorem Results.withFrameControl_maclen (c : FrameControl) : (r.withFrameControl c).maclen = r.maclen := rfl
@[simp] theorem Results.withFrameControl_mic (c : FrameControl) : (r.withFrameControl c).mic = r.mic := rfl
@[simp] theorem Results.withFrameControl_dir (c : FrameControl) : (r.withFrameControl c).dir = r.dir := rfl
@[simp] theorem Results.withFrameControl_devaddr (c : FrameControl) : (r.withFrameControl c).devaddr = r.devaddr := rfl
@[simp] theorem Results.withFrameControl_fctrl (c : FrameControl) : (r.withFrameControl c).fctrl = c.fctrl := rfl
@[simp] theorem Results.withFrameControl_adr (c : FrameControl) : (r.withFrameControl c).adr = c.adr := rfl
@[simp] theorem Results.withFrameControl_adrackreq (c : FrameControl) : (r.withFrameControl c).adrackreq = c.adrackreq := rfl
@[simp] theorem Results.withFrameControl_ack (c : FrameControl) : (r.withFrameControl c).ack = c.ack := rfl
@[simp] theorem Results.withFrameControl_fpending (c : FrameControl) : (r.withFrameControl c).fpending = c.fpending := rfl
@[simp] theorem Results.withFrameControl_rfu (c : FrameControl) : (r.withFrameControl c).rfu = c.rfu := rfl
@[simp] theorem Results.withFrameControl_foptslen (c : FrameControl) : (r.withFrameControl c).foptslen = c.foptslen := rfl
@[simp] theorem Results.withFrameControl_fcnt (c : FrameControl) : (r.withFrameControl c).fcnt = r.fcnt := rfl
@[simp] theorem Results.withFrameControl_fopts (c : FrameControl) : (r.withFrameControl c).fopts = r.fopts := rfl
@[simp] theorem Results.withFrameControl_fhdrlen (c : FrameControl) : (r.withFrameControl c).fhdrlen = r.fhdrlen := rfl
@[simp] theorem Results.withFrameControl_fportp (c : FrameControl) : (r.withFrameControl c).fportp = r.fportp := rfl
@[simp] theorem Results.withFrameControl_fport (c : FrameControl) : (r.withFrameControl c).fport = r.fport := rfl
@[simp] theorem Results.withFrameControl_frmoff (c : FrameControl) : (r.withFrameControl c).frmoff = r.frmoff := rfl
@[simp] theorem Results.withFrameControl_frmlen (c : FrameControl) : (r.withFrameControl c).frmlen = r.frmlen := rfl
@[simp] theorem Results.withFrameControl_appeui (c : FrameControl) : (r.withFrameControl c).appeui = r.appeui := rfl
@[simp] theorem Results.withFrameControl_deveui (c : FrameControl) : (r.withFrameControl c).deveui = r.deveui := rfl
@[simp] theorem Results.withFrameControl_devnonce (c : FrameControl) : (r.withFrameControl c).devnonce = r.devnonce := rfl
@[simp] theorem Results.withFrameControl_appnonce (c : FrameControl) : (r.withFrameControl c).appnonce = r.appnonce := rfl
@[simp] theorem Results.withFrameControl_netid (c : FrameControl) : (r.withFrameControl c).netid = r.netid := rfl
@[simp] theorem Results.withFrameControl_dlsettings (c : FrameControl) : (r.withFrameControl c).dlsettings = r.dlsettings := rfl
@[simp] theorem Results.withFrameControl_rxdelay (c : FrameControl) : (r.withFrameControl c).rxdelay = r.rxdelay := rfl
@[simp] theorem Results.withFrameControl_cflistp (c : FrameControl) : (r.withFrameControl c).cflistp = r.cflistp := rfl
@[simp] theorem Results.withFrameControl_cflist (c : FrameControl) : (r.withFrameControl c).cflist = r.cflist := rfl

/-! The frame-header registers -/

@[simp] theorem Results.withHeader_mhdr (h : FrameHeader) : (r.withHeader h).mhdr = r.mhdr := rfl
@[simp] theorem Results.withHeader_mtype (h : FrameHeader) : (r.withHeader h).mtype = r.mtype := rfl
@[simp] theorem Results.withHeader_maclen (h : FrameHeader) : (r.withHeader h).maclen = r.maclen := rfl
@[simp] theorem Results.withHeader_mic (h : FrameHeader) : (r.withHeader h).mic = r.mic := rfl
@[simp] theorem Results.withHeader_dir (h : FrameHeader) : (r.withHeader h).dir = r.dir := rfl
@[simp] theorem Results.withHeader_devaddr (h : FrameHeader) : (r.withHeader h).devaddr = h.devaddr := rfl
@[simp] theorem Results.withHeader_fctrl (h : FrameHeader) : (r.withHeader h).fctrl = h.fc.fctrl := rfl
@[simp] theorem Results.withHeader_adr (h : FrameHeader) : (r.withHeader h).adr = h.fc.adr := rfl
@[simp] theorem Results.withHeader_adrackreq (h : FrameHeader) : (r.withHeader h).adrackreq = h.fc.adrackreq := rfl
@[simp] theorem Results.withHeader_ack (h : FrameHeader) : (r.withHeader h).ack = h.fc.ack := rfl
@[simp] theorem Results.withHeader_fpending (h : FrameHeader) : (r.withHeader h).fpending = h.fc.fpending := rfl
@[simp] theorem Results.withHeader_rfu (h : FrameHeader) : (r.withHeader h).rfu = h.fc.rfu := rfl
@[simp] theorem Results.withHeader_foptslen (h : FrameHeader) : (r.withHeader h).foptslen = h.fc.foptslen := rfl
@[simp] theorem Results.withHeader_fcnt (h : FrameHeader) : (r.withHeader h).fcnt = h.fcnt := rfl
@[simp] theorem Results.withHeader_fopts (h : FrameHeader) : (r.withHeader h).fopts = fit 15 h.fopts := rfl
@[simp] theorem Results.withHeader_fhdrlen (h : FrameHeader) : (r.withHeader h).fhdrlen = h.fhdrlen := rfl
@[simp] theorem Results.withHeader_fportp (h : FrameHeader) : (r.withHeader h).fportp = r.fportp := rfl
@[simp] theorem Results.withHeader_fport (h : FrameHeader) : (r.withHeader h).fport = r.fport := rfl
@[simp] theorem Results.withHeader_frmoff (h : FrameHeader) : (r.withHeader h).frmoff = r.frmoff := rfl
@[simp] theorem Results.withHeader_frmlen (h : FrameHeader) : (r.withHeader h).frmlen = r.frmlen := rfl
@[simp] theorem Results.withHeader_appeui (h : FrameHeader) : (r.withHeader h).appeui = r.appeui := rfl
@[simp] theorem Results.withHeader_deveui (h : FrameHeader) : (r.withHeader h).deveui = r.deveui := rfl
@[simp] theorem Results.withHeader_devnonce (h : FrameHeader) : (r.withHeader h).devnonce = r.devnonce := rfl
@[simp] theorem Results.withHeader_appnonce (h : FrameHeader) : (r.withHeader h).appnonce = r.appnonce := rfl
@[simp] theorem Results.withHeader_netid (h : FrameHeader) : (r.withHeader h).netid = r.netid := rfl
@[simp] theorem Results.withHeader_dlsettings (h : FrameHeader) : (r.withHeader h).dlsettings = r.dlsettings := rfl
@[simp] theorem Results.withHeader_rxdelay (h : FrameHeader) : (r.withHeader h).rxdelay = r.rxdelay := rfl
@[simp] theorem Results.withHeader_cflistp (h : FrameHeader) : (r.withHeader h).cflistp = r.cflistp := rfl
@[simp] theorem Results.withHeader_cflist (h : FrameHeader) : (r.withHeader h).cflist = r.cflist := rfl

/-! The data-message registers -/

@[simp] theorem Results.withData_mhdr (d : DataFields) : (r.withData d).mhdr = r.mhdr := rfl
@[simp] theorem Results.withData_mtype (d : DataFields) : (r.withData d).mtype = r.mtype := rfl
@[simp] theorem Results.withData_maclen (d : DataFields) : (r.withData d).maclen = r.maclen := rfl
@[simp] theorem Results.withData_mic (d : DataFields) : (r.withData d).mic = r.mic := rfl
@[simp] theorem Results.withData_dir (d : DataFields) : (r.withData d).dir = d.dir := rfl
@[simp] theorem Results.withData_devaddr (d : DataFields) : (r.withData d).devaddr = d.header.devaddr := rfl
@[simp] theorem Results.withData_fctrl (d : DataFields) : (r.withData d).fctrl = d.header.fc.fctrl := rfl
@[simp] theorem Results.withData_adr (d : DataFields) : (r.withData d).adr = d.header.fc.adr := rfl
@[simp] theorem Results.withData_adrackreq (d : DataFields) : (r.withData d).adrackreq = d.header.fc.adrackreq := rfl
@[simp] theorem Results.withData_ack (d : DataFields) : (r.withData d).ack = d.header.fc.ack := rfl
@[simp] theorem Results.withData_fpending (d : DataFields) : (r.withData d).fpending = d.header.fc.fpending := rfl
@[simp] theorem Results.withData_rfu (d : DataFields) : (r.withData d).rfu = d.header.fc.rfu := rfl
@[simp] theorem Results.withData_foptslen (d : DataFields) : (r.withData d).foptslen = d.header.fc.foptslen := rfl
@[simp] theorem Results.withData_fcnt (d : DataFields) : (r.withData d).fcnt = d.header.fcnt := rfl
@[simp] theorem Results.withData_fopts (d : DataFields) : (r.withData d).fopts = fit 15 d.header.fopts := rfl
@[simp] theorem Results.withData_fhdrlen (d : DataFields) : (r.withData d).fhdrlen = d.header.fhdrlen := rfl
@[simp] theorem Results.withData_fportp (d : DataFields) : (r.withData d).fportp = d.fportp := rfl
@[simp] theorem Results.withData_fport (d : DataFields) : (r.withData d).fport = d.fport := rfl
@[simp] theorem Results.withData_frmoff (d : DataFields) : (r.withData d).frmoff = d.frmoff := rfl
@[simp] theorem Results.withData_frmlen (d : DataFields) : (r.withData d).frmlen = d.frmlen := rfl
@[simp] theorem Results.withData_appeui (d : DataFields) : (r.withData d).appeui = r.appeui := rfl
@[simp] theorem Results.withData_deveui (d : DataFields) : (r.withData d).deveui = r.deveui := rfl
@[simp] theorem Results.withData_devnonce (d : DataFields) : (r.withData d).devnonce = r.devnonce := rfl
@[simp] theorem Results.withData_appnonce (d : DataFields) : (r.withData d).appnonce = r.appnonce := rfl
@[simp] theorem Results.withData_netid (d : DataFields) : (r.withData d).netid = r.netid := rfl
@[simp] theorem Results.withData_dlsettings (d : DataFields) : (r.withData d).dlsettings = r.dlsettings := rfl
@[simp] theorem Results.withData_rxdelay (d : DataFields) : (r.withData d).rxdelay = r.rxdelay := rfl
@[simp] theorem Results.withData_cflistp (d : DataFields) : (r.withData d).cflistp = r.cflistp := rfl
@[simp] theorem Results.withData_cflist (d : DataFields) : (r.withData d).cflist = r.cflist := rfl

/-! The join-request registers -/

@[simp] theorem Results.withJoinRequest_mhdr (v : JoinRequestFields) : (r.withJoinRequest v).mhdr = r.mhdr := rfl
@[simp] theorem Results.withJoinRequest_mtype (v : JoinRequestFields) : (r.withJoinRequest v).mtype = r.mtype := rfl
@[simp] theorem Results.withJoinRequest_maclen (v : JoinRequestFields) : (r.withJoinRequest v).maclen = r.maclen := rfl
@[simp] theorem Results.withJoinRequest_mic (v : JoinRequestFields) : (r.withJoinRequest v).mic = r.mic := rfl
@[simp] theorem Results.withJoinRequest_dir (v : JoinRequestFields) : (r.withJoinRequest v).dir = r.dir := rfl
@[simp] theorem Results.withJoinRequest_devaddr (v : JoinRequestFields) : (r.withJoinRequest v).devaddr = r.devaddr := rfl
@[simp] theorem Results.withJoinRequest_fctrl (v : JoinRequestFields) : (r.withJoinRequest v).fctrl = r.fctrl := rfl
@[simp] theorem Results.withJoinRequest_adr (v : JoinRequestFields) : (r.withJoinRequest v).adr = r.adr := rfl
@[simp] theorem Results.withJoinRequest_adrackreq (v : JoinRequestFields) : (r.withJoinRequest v).adrackreq = r.adrackreq := rfl
@[simp] theorem Results.withJoinRequest_ack (v : JoinRequestFields) : (r.withJoinRequest v).ack = r.ack := rfl
@[simp] theorem Results.withJoinRequest_fpending (v : JoinRequestFields) : (r.withJoinRequest v).fpending = r.fpending := rfl
@[simp] theorem Results.withJoinRequest_rfu (v : JoinRequestFields) : (r.withJoinRequest v).rfu = r.rfu := rfl
@[simp] theorem Results.withJoinRequest_foptslen (v : JoinRequestFields) : (r.withJoinRequest v).foptslen = r.foptslen := rfl
@[simp] theorem Results.withJoinRequest_fcnt (v : JoinRequestFields) : (r.withJoinRequest v).fcnt = r.fcnt := rfl
@[simp] theorem Results.withJoinRequest_fopts (v : JoinRequestFields) : (r.withJoinRequest v).fopts = r.fopts := rfl
@[simp] theorem Results.withJoinRequest_fhdrlen (v : JoinRequestFields) : (r.withJoinRequest v).fhdrlen = r.fhdrlen := rfl
@[simp] theorem Results.withJoinRequest_fportp (v : JoinRequestFields) : (r.withJoinRequest v).fportp = r.fportp := rfl
@[simp] theorem Results.withJoinRequest_fport (v : JoinRequestFields) : (r.withJoinRequest v).fport = r.fport := rfl
@[simp] theorem Results.withJoinRequest_frmoff (v : JoinRequestFields) : (r.withJoinRequest v).frmoff = r.frmoff := rfl
@[simp] theorem Results.withJoinRequest_frmlen (v : JoinRequestFields) : (r.withJoinRequest v).frmlen = r.frmlen := rfl
@[simp] theorem Results.withJoinRequest_appeui (v : JoinRequestFields) : (r.withJoinRequest v).appeui = v.appeui := rfl
@[simp] theorem Results.withJoinRequest_deveui (v : JoinRequestFields) : (r.withJoinRequest v).deveui = v.deveui := rfl
@[simp] theorem Results.withJoinRequest_devnonce (v : JoinRequestFields) : (r.withJoinRequest v).devnonce = v.devnonce := rfl
@[simp] theorem Results.withJoinRequest_appnonce (v : JoinRequestFields) : (r.withJoinRequest v).appnonce = r.appnonce := rfl
@[simp] theorem Results.withJoinRequest_netid (v : JoinRequestFields) : (r.withJoinRequest v).netid = r.netid := rfl
@[simp] theorem Results.withJoinRequest_dlsettings (v : JoinRequestFields) : (r.withJoinRequest v).dlsettings = r.dlsettings := rfl
@[simp] theorem Results.withJoinRequest_rxdelay (v : JoinRequestFields) : (r.withJoinRequest v).rxdelay = r.rxdelay := rfl
@[simp] theorem Results.withJoinRequest_cflistp (v : JoinRequestFields) : (r.withJoinRequest v).cflistp = r.cflistp := rfl
@[simp] theorem Results.withJoinRequest_cflist (v : JoinRequestFields) : (r.withJoinRequest v).cflist = r.cflist := rfl

/-! The join-accept registers -/

@[simp] theorem Results.withJoinAccept_mhdr (v : JoinAcceptFields) : (r.withJoinAccept v).mhdr = r.mhdr := rfl
@[simp] theorem Results.withJoinAccept_mtype (v : JoinAcceptFields) : (r.withJoinAccept v).mtype = r.mtype := rfl
@[simp] theorem Results.withJoinAccept_maclen (v : JoinAcceptFields) : (r.withJoinAccept v).maclen = r.maclen := rfl
@[simp] theorem Results.withJoinAccept_mic (v : JoinAcceptFields) : (r.withJoinAccept v).mic = r.mic := rfl
@[simp] theorem Results.withJoinAccept_dir (v : JoinAcceptFields) : (r.withJoinAccept v).dir = r.dir := rfl
@[simp] theorem Results.withJoinAccept_devaddr (v : JoinAcceptFields) : (r.withJoinAccept v).devaddr = v.devaddr := rfl
@[simp] theorem Results.withJoinAccept_fctrl (v : JoinAcceptFields) : (r.withJoinAccept v).fctrl = r.fctrl := rfl
@[simp] theorem Results.withJoinAccept_adr (v : JoinAcceptFields) : (r.withJoinAccept v).adr = r.adr := rfl
@[simp] theorem Results.withJoinAccept_adrackreq (v : JoinAcceptFields) : (r.withJoinAccept v).adrackreq = r.adrackreq := rfl
@[simp] theorem Results.withJoinAccept_ack (v : JoinAcceptFields) : (r.withJoinAccept v).ack = r.ack := rfl
@[simp] theorem Results.withJoinAccept_fpending (v : JoinAcceptFields) : (r.withJoinAccept v).fpending = r.fpending := rfl
@[simp] theorem Results.withJoinAccept_rfu (v : JoinAcceptFields) : (r.withJoinAccept v).rfu = r.rfu := rfl
@[simp] theorem Results.withJoinAccept_foptslen (v : JoinAcceptFields) : (r.withJoinAccept v).foptslen = r.foptslen := rfl
@[simp] theorem Results.withJoinAccept_fcnt (v : JoinAcceptFields) : (r.withJoinAccept v).fcnt = r.fcnt := rfl
@[simp] theorem Results.withJoinAccept_fopts (v : JoinAcceptFields) : (r.withJoinAccept v).fopts = r.fopts := rfl
@[simp] theorem Results.withJoinAccept_fhdrlen (v : JoinAcceptFields) : (r.withJoinAccept v).fhdrlen = r.fhdrlen := rfl
@[simp] theorem Results.withJoinAccept_fportp (v : JoinAcceptFields) : (r.withJoinAccept v).fportp = r.fportp := rfl
@[simp] theorem Results.withJoinAccept_fport (v : JoinAcceptFields) : (r.withJoinAccept v).fport = r.fport := rfl
@[simp] theorem Results.withJoinAccept_frmoff (v : JoinAcceptFields) : (r.withJoinAccept v).frmoff = r.frmoff := rfl
@[simp] theorem Results.withJoinAccept_frmlen (v : JoinAcceptFields) : (r.withJoinAccept v).frmlen = r.frmlen := rfl
@[simp] theorem Results.withJoinAccept_appeui (v : JoinAcceptFields) : (r.withJoinAccept v).appeui = r.appeui := rfl
@[simp] theorem Results.withJoinAccept_deveui (v : JoinAcceptFields) : (r.withJoinAccept v).deveui = r.deveui := rfl
@[simp] theorem Results.withJoinAccept_devnonce (v : JoinAcceptFields) : (r.withJoinAccept v).devnonce = r.devnonce := rfl
@[simp] theorem Results.withJoinAccept_appnonce (v : JoinAcceptFields) : (r.withJoinAccept v).appnonce = v.appnonce := rfl
@[simp] theorem Results.withJoinAccept_netid (v : JoinAcceptFields) : (r.withJoinAccept v).netid = v.netid := rfl
@[simp] theorem Results.withJoinAccept_dlsettings (v : JoinAcceptFields) : (r.withJoinAccept v).dlsettings = v.dlsettings := rfl
@[simp] theorem Results.withJoinAccept_rxdelay (v : JoinAcceptFields) : (r.withJoinAccept v).rxdelay = v.rxdelay := rfl
@[simp] theorem Results.withJoinAccept_cflistp (v : JoinAcceptFields) : (r.withJoinAccept v).cflistp = v.cflistp := rfl
@[simp] theorem Results.withJoinAccept_cflist (v : JoinAcceptFields) : (r.withJoinAccept v).cflist = v.cflist := rfl

end

end Sys2Proof.Machine
end

