-- ==== Sys2Proof/Laws/Parse.lean ====
section
/-! SUPPORT. What the decoders, the dispatcher and PARSE can answer, said once. -/

namespace Sys2Proof.Machine

@[simp] theorem length_mac (s : State) : s.mac.length = s.len.toNat - 5 := by simp [State.mac]

theorem mac_invalidate (s : State) : s.invalidate.mac = s.mac := rfl

theorem trailer_invalidate (s : State) : s.invalidate.trailer = s.trailer := rfl

/-- What JOINREQ_DECODE answers (R140, R141). -/
theorem joinreqDecode_cases (mac : List Byte) :
    (mac.length ≠ 18 ∧ joinreqDecode mac = .error { kind := .truncatedFrame, sub := 2 }) ∨
    (mac.length = 18 ∧ joinreqDecode mac = .ok {
      appeui := BitVec.ofNat 64 (le (sub mac 0 8))
      deveui := BitVec.ofNat 64 (le (sub mac 8 8))
      devnonce := fit 2 (sub mac 16 2) }) := by
  unfold joinreqDecode
  split
  · exact .inl ⟨‹_›, rfl⟩
  · exact .inr ⟨by omega, rfl⟩

/-- What JOINACC_DECODE answers (R142 to R144). -/
theorem joinaccDecode_cases (mac : List Byte) :
    (mac.length ≠ 12 ∧ mac.length ≠ 28 ∧ joinaccDecode mac = .error { kind := .truncatedFrame, sub := 3 }) ∨
    ((mac.length = 12 ∨ mac.length = 28) ∧ joinaccDecode mac = .ok {
      appnonce := fit 3 (sub mac 0 3)
      netid := fit 3 (sub mac 3 3)
      devaddr := BitVec.ofNat 32 (le (sub mac 6 4))
      dlsettings := byteAt mac 10
      rxdelay := byteAt mac 11
      cflistp := decide (mac.length = 28)
      cflist := if mac.length = 28 then fit 16 (sub mac 12 16) else Vector.replicate 16 0 }) := by
  unfold joinaccDecode
  split
  · rename_i h; exact .inl ⟨h.1, h.2, rfl⟩
  · exact .inr ⟨by omega, rfl⟩

/-- FCTRL_DECODE keeps the raw byte and reads FOptsLen from its low nibble in both directions (R105). -/
@[simp] theorem fctrlDecode_fctrl (b : Byte) (d : Direction) : (fctrlDecode b d).fctrl = b := by
  cases d <;> rfl

@[simp] theorem fctrlDecode_foptslen (b : Byte) (d : Direction) : (fctrlDecode b d).foptslen = b.extractLsb' 0 4 := by
  cases d <;> rfl

theorem toNat_lowNibble (b : Byte) : (b.extractLsb' 0 4).toNat = b.toNat % 16 := by
  simp [BitVec.extractLsb'_toNat]

/-- What FHDR_DECODE answers (R115 to R117); n is the low nibble of the byte at offset 4. -/
theorem fhdrDecode_cases (mac : List Byte) (d : Direction) :
    (mac.length < 5 ∧ fhdrDecode mac d = .error { kind := .truncatedFrame, sub := 4 }) ∨
    (5 ≤ mac.length ∧ mac.length < 7 + (byteAt mac 4).toNat % 16 ∧
      fhdrDecode mac d = .error { kind := .truncatedFrame, sub := 5 }) ∨
    (7 + (byteAt mac 4).toNat % 16 ≤ mac.length ∧ fhdrDecode mac d = .ok {
      devaddr := BitVec.ofNat 32 (le (sub mac 0 4))
      fc := fctrlDecode (byteAt mac 4) d
      fcnt := BitVec.ofNat 16 (le (sub mac 5 2))
      fopts := sub mac 7 ((byteAt mac 4).toNat % 16)
      fhdrlen := BitVec.ofNat 5 (7 + (byteAt mac 4).toNat % 16) }) := by
  unfold fhdrDecode
  simp only [fctrlDecode_foptslen, toNat_lowNibble]
  split
  · exact .inl ⟨‹_›, rfl⟩
  · split
    · exact .inr (.inl ⟨by omega, ‹_›, rfl⟩)
    · exact .inr (.inr ⟨by omega, rfl⟩)

/-- What DATA_DECODE answers (R150, R152), through the header's answer. -/
theorem dataDecode_cases (mac : List Byte) (d : Direction) :
    (∃ e, fhdrDecode mac d = .error e ∧ dataDecode mac d = .error e) ∨
    (∃ h, fhdrDecode mac d = .ok h ∧ mac.length > 7 + h.fc.foptslen.toNat ∧ dataDecode mac d = .ok {
      dir := d
      header := h
      fportp := true
      fport := byteAt mac (7 + h.fc.foptslen.toNat)
      frmoff := if mac.length - 8 - h.fc.foptslen.toNat > 0 then BitVec.ofNat 9 (9 + h.fc.foptslen.toNat) else 0
      frmlen := BitVec.ofNat 9 (mac.length - 8 - h.fc.foptslen.toNat) }) ∨
    (∃ h, fhdrDecode mac d = .ok h ∧ mac.length ≤ 7 + h.fc.foptslen.toNat ∧ dataDecode mac d = .ok {
      dir := d, header := h, fportp := false, fport := 0, frmoff := 0, frmlen := 0 }) := by
  unfold dataDecode
  cases hf : fhdrDecode mac d with
  | error e => exact .inl ⟨e, rfl, rfl⟩
  | ok h =>
    by_cases hl : mac.length > 7 + h.fc.foptslen.toNat
    · exact .inr (.inl ⟨h, rfl, hl, by simp [hl]⟩)
    · exact .inr (.inr ⟨h, rfl, by omega, by simp [hl]⟩)

/-- A branch of the dispatcher takes an error or commits a variant; it writes nothing else (R132, R133). -/
def BranchOutcome (s t : State) (mhdr : Byte) : Prop :=
  (∃ e, e.kind ≠ .noError ∧ ErrorKind.badCommand ≠ e.kind ∧ t = s.raise e) ∨
  (∃ v f, v ≠ Variant.noVariant ∧ t = s.commit mhdr v f)

/-- Everything the eight-way branch can do. -/
theorem dispatch_cases (s : State) (mhdr : Byte) : BranchOutcome s (s.dispatch mhdr) mhdr := by
  have hdata : ∀ v d, v ≠ Variant.noVariant → BranchOutcome s (s.dataBranch mhdr v d) mhdr := by
    intro v d hv
    unfold State.dataBranch
    rcases dataDecode_cases s.mac d with ⟨e, he, h⟩ | ⟨h, -, -, hd⟩ | ⟨h, -, -, hd⟩
    · rw [h]
      refine .inl ⟨e, ?_⟩
      rcases fhdrDecode_cases s.mac d with ⟨-, h'⟩ | ⟨-, -, h'⟩ | ⟨-, h'⟩ <;> rw [he] at h' <;> cases h' <;> simp
    · rw [hd]; exact .inr ⟨v, _, hv, rfl⟩
    · rw [hd]; exact .inr ⟨v, _, hv, rfl⟩
  unfold State.dispatch
  split
  · unfold State.joinRequestBranch
    rcases joinreqDecode_cases s.mac with ⟨-, h⟩ | ⟨-, h⟩ <;> rw [h]
    · exact .inl ⟨_, by simp, by simp, rfl⟩
    · exact .inr ⟨_, _, by simp, rfl⟩
  · unfold State.joinAcceptBranch
    rcases joinaccDecode_cases s.mac with ⟨-, -, h⟩ | ⟨-, h⟩ <;> rw [h]
    · exact .inl ⟨_, by simp, by simp, rfl⟩
    · exact .inr ⟨_, _, by simp, rfl⟩
  · exact hdata _ _ (by simp)
  · exact hdata _ _ (by simp)
  · exact hdata _ _ (by simp)
  · exact hdata _ _ (by simp)
  · exact .inl ⟨_, by simp, by simp, rfl⟩
  · exact .inl ⟨_, by simp, by simp, rfl⟩

/-- Everything PARSE can do (R125): the two checks of its own, then the dispatcher on the invalidated state. -/
theorem parse_cases (s : State) :
    (s.ovf = true ∧ s.parse = s.invalidate.raise { kind := .overflow, sub := 0 }) ∨
    (s.ovf = false ∧ s.len.toNat < 5 ∧ s.parse = s.invalidate.raise { kind := .truncatedFrame, sub := 1 }) ∨
    (s.ovf = false ∧ 5 ≤ s.len.toNat ∧ s.parse = s.invalidate.dispatch (s.fb.read 0)) := by
  unfold State.parse
  by_cases ho : s.ovf = true
  · exact .inl ⟨ho, by simp [ho]⟩
  · by_cases hl : s.len.toNat < 5
    · exact .inr (.inl ⟨by simpa using ho, hl, by simp [ho, hl]⟩)
    · exact .inr (.inr ⟨by simpa using ho, by omega, by simp [ho, hl]⟩)

/-- A part of MacPayload is a part of FB (R128). -/
theorem sub_mac (s : State) (i k : Nat) (h : i + k ≤ s.len.toNat - 5) : sub s.mac i k = s.fb.slice (1 + i) k := by
  rw [State.mac, sub_slice _ _ _ _ _ (by omega)]

/-- A byte of MacPayload is a byte of FB (R128). -/
theorem byteAt_mac (s : State) (i : Nat) (h : i < s.len.toNat - 5) : byteAt s.mac i = s.fb.read (1 + i) := by
  rw [State.mac, byteAt_slice _ _ _ _ (by omega)]

/-- The frame-control byte of MacPayload carries FOptsLen (R65). -/
theorem byteAt_mac_four (s : State) (h : 10 ≤ s.len.toNat) : (byteAt s.mac 4).toNat % 16 = s.wireFOptsLen := by
  rw [byteAt_mac s 4 (by omega)]; rfl

/-- FOptsLen is at most 15. -/
theorem wireFOptsLen_lt (s : State) : s.wireFOptsLen < 16 := Nat.mod_lt _ (by decide)

/-- FOptsLen as the frame-control decoder gives it. -/
theorem fctrlDecode_foptslen_toNat (s : State) (d : Direction) : (fctrlDecode (s.fb.read 5) d).foptslen.toNat = s.wireFOptsLen := by
  rw [fctrlDecode_foptslen, toNat_lowNibble]; rfl

/-- The header of a data frame that is long enough. -/
theorem fhdrDecode_fits (s : State) (d : Direction) (h : 12 + s.wireFOptsLen ≤ s.len.toNat) :
    fhdrDecode s.mac d = .ok {
      devaddr := BitVec.ofNat 32 (le (s.fb.slice 1 4))
      fc := fctrlDecode (s.fb.read 5) d
      fcnt := BitVec.ofNat 16 (le (s.fb.slice 6 2))
      fopts := s.fb.slice 8 s.wireFOptsLen
      fhdrlen := BitVec.ofNat 5 (7 + s.wireFOptsLen) } := by
  rcases fhdrDecode_cases s.mac d with ⟨h', -⟩ | ⟨h', h'', -⟩ | ⟨-, h'⟩
  · simp at h'; omega
  · rw [byteAt_mac_four s (by omega)] at h''; simp at h''; omega
  · rw [h', byteAt_mac_four s (by omega), sub_mac _ _ _ (by omega), sub_mac _ _ _ (by omega),
      sub_mac _ _ _ (by omega),
      byteAt_mac _ _ (by omega)]

/-- What DATA_DECODE gives on a data frame that is long enough (R150, R152). -/
theorem dataDecode_fits (s : State) (d : Direction) (h : 12 + s.wireFOptsLen ≤ s.len.toNat) :
    ∃ f, dataDecode s.mac d = .ok f ∧ f.dir = d ∧ fhdrDecode s.mac d = .ok f.header ∧
    ((s.len.toNat = 12 + s.wireFOptsLen → f.fportp = false ∧ f.fport = 0 ∧ f.frmlen = 0 ∧ f.frmoff = 0) ∧
      (12 + s.wireFOptsLen < s.len.toNat →
        f.fportp = true ∧ f.fport = s.fb.read (8 + s.wireFOptsLen) ∧
        f.frmlen.toNat = s.len.toNat - 13 - s.wireFOptsLen ∧
        f.frmoff.toNat = (if s.len.toNat = 13 + s.wireFOptsLen then 0 else 9 + s.wireFOptsLen))) := by
  have hw := wireFOptsLen_lt s
  have hlen := s.len.isLt
  rcases dataDecode_cases s.mac d with ⟨e, he, -⟩ | ⟨g, hg, hl, hd⟩ | ⟨g, hg, hl, hd⟩
  · rw [fhdrDecode_fits s d h] at he; cases he
  · refine ⟨_, hd, rfl, hg, ?_⟩
    have hg' := hg
    rw [fhdrDecode_fits s d h] at hg'
    cases hg'
    simp only [fctrlDecode_foptslen_toNat, length_mac] at hl ⊢
    refine ⟨fun h' => by omega, fun h' => ⟨trivial, ?_, ?_, ?_⟩⟩
    · rw [byteAt_mac _ _ (by omega)]; congr 1; omega
    · simp; omega
    · split
      · rw [if_neg (by omega)]; simp; omega
      · rw [if_pos (by omega)]; rfl
  · refine ⟨_, hd, rfl, hg, ?_⟩
    have hg' := hg
    rw [fhdrDecode_fits s d h] at hg'
    cases hg'
    simp only [fctrlDecode_foptslen_toNat, length_mac] at hl ⊢
    exact ⟨fun _ => by simp, fun h' => by omega⟩

/-- The data registers of a data frame that is long enough. -/
theorem withData_fits (s : State) (h : 12 + s.wireFOptsLen ≤ s.len.toNat) (d f) (hf : dataDecode s.mac d = .ok f)
    (r : Results) :
  let q := r.withData f
  q.dir = d ∧ q.devaddr.toNat = le (s.fb.slice 1 4) ∧ q.devaddr = BitVec.ofNat 32 (le (s.fb.slice 1 4)) ∧
      q.fctrl = s.fb.read 5 ∧ q.foptslen.toNat = s.wireFOptsLen ∧
  q.fcnt = BitVec.ofNat 16 (le (s.fb.slice 6 2)) ∧ q.fopts = fit 15 (s.fb.slice 8 s.wireFOptsLen) ∧
      q.fhdrlen.toNat = 7 + s.wireFOptsLen ∧
  ((s.len.toNat = 12 + s.wireFOptsLen → q.fportp = false ∧ q.fport = 0 ∧ q.frmlen = 0 ∧ q.frmoff = 0) ∧
      (12 + s.wireFOptsLen < s.len.toNat →
        q.fportp = true ∧ q.fport = s.fb.read (8 + s.wireFOptsLen) ∧
        q.frmlen.toNat = s.len.toNat - 13 - s.wireFOptsLen ∧
        q.frmoff.toNat = (if s.len.toNat = 13 + s.wireFOptsLen then 0 else 9 + s.wireFOptsLen))) := by
  have hw := wireFOptsLen_lt s
  have l4 := le_lt (s.fb.slice 1 4)
  simp only [Memory.length_slice] at l4
  obtain ⟨f', hf', hd, hh, h1, h2⟩ := dataDecode_fits s d h
  rw [hf] at hf'; cases hf'
  rw [fhdrDecode_fits s _ h] at hh
  have hh' := Except.ok.inj hh
  simp only [Results.withData_devaddr, Results.withData_dir, Results.withData_fctrl, Results.withData_foptslen,
      Results.withData_fcnt, Results.withData_fopts, Results.withData_fhdrlen, ← hh', fctrlDecode_fctrl,
      fctrlDecode_foptslen_toNat, BitVec.toNat_ofNat]
  refine ⟨hd, by omega, ?_, ?_, ?_, ?_, ?_, by omega, h1, h2⟩ <;> trivial

/-- The type code the dispatcher reads. -/
theorem mtypeOf_read (s : State) : (mtypeOf (s.fb.read 0)).toNat = s.wireType := by
  have := (s.fb.read 0).isLt
  simp [mtypeOf, State.wireType, BitVec.extractLsb'_toNat, Nat.shiftRight_eq_div_pow]; omega

/-- A type code is at most 7. -/
theorem wireType_lt (s : State) : s.wireType < 8 := by
  have := (s.fb.read 0).isLt
  simp [State.wireType]; omega

/-- Every outcome of PARSE with its condition: the seven errors and the three shapes of success. -/
theorem parse_outcomes (s : State) :
    (s.ovf = true ∧ s.parse = s.invalidate.raise ⟨.overflow, 0⟩) ∨
    (s.ovf = false ∧ s.len.toNat < 5 ∧ s.parse = s.invalidate.raise ⟨.truncatedFrame, 1⟩) ∨
    (s.ovf = false ∧ 5 ≤ s.len.toNat ∧ 6 ≤ s.wireType ∧ s.parse = s.invalidate.raise ⟨.unsupportedType,
        BitVec.ofNat 4 s.wireType⟩) ∨
    (s.ovf = false ∧ 5 ≤ s.len.toNat ∧ s.wireType = 0 ∧ s.len.toNat ≠ 23 ∧
        s.parse = s.invalidate.raise ⟨.truncatedFrame, 2⟩) ∨
    (s.ovf = false ∧ 5 ≤ s.len.toNat ∧ s.wireType = 1 ∧ s.len.toNat ≠ 17 ∧ s.len.toNat ≠ 33 ∧
        s.parse = s.invalidate.raise ⟨.truncatedFrame, 3⟩) ∨
    (s.ovf = false ∧ 5 ≤ s.len.toNat ∧ 2 ≤ s.wireType ∧ s.wireType ≤ 5 ∧ s.len.toNat < 10 ∧
        s.parse = s.invalidate.raise ⟨.truncatedFrame, 4⟩) ∨
    (s.ovf = false ∧ 10 ≤ s.len.toNat ∧ 2 ≤ s.wireType ∧ s.wireType ≤ 5 ∧ s.len.toNat < 12 + s.wireFOptsLen ∧
        s.parse = s.invalidate.raise ⟨.truncatedFrame, 5⟩) ∨
    (s.ovf = false ∧ s.wireType = 0 ∧ s.len.toNat = 23 ∧ s.parse = s.invalidate.commit (s.fb.read 0) .joinRequest
      (fun r => r.withJoinRequest {
        appeui := BitVec.ofNat 64 (le (s.fb.slice 1 8))
        deveui := BitVec.ofNat 64 (le (s.fb.slice 9 8))
        devnonce := fit 2 (s.fb.slice 17 2) })) ∨
    (s.ovf = false ∧ s.wireType = 1 ∧ (s.len.toNat = 17 ∨ s.len.toNat = 33) ∧
        s.parse = s.invalidate.commit (s.fb.read 0) .joinAccept
      (fun r => r.withJoinAccept {
        appnonce := fit 3 (s.fb.slice 1 3)
        netid := fit 3 (s.fb.slice 4 3)
        devaddr := BitVec.ofNat 32 (le (s.fb.slice 7 4))
        dlsettings := s.fb.read 11
        rxdelay := s.fb.read 12
        cflistp := decide (s.len.toNat = 33)
        cflist := if s.len.toNat = 33 then fit 16 (s.fb.slice 13 16) else Vector.replicate 16 0 })) ∨
    (s.ovf = false ∧ 2 ≤ s.wireType ∧ s.wireType ≤ 5 ∧ 12 + s.wireFOptsLen ≤ s.len.toNat ∧
      ∃ v d f, v.tag.toNat = s.wireType ∧ v ≠ .noVariant ∧ v ≠ .joinRequest ∧ v ≠ .joinAccept ∧
          d.toByte.toNat = s.wireType % 2 ∧ dataDecode s.mac d = .ok f ∧
          s.parse = s.invalidate.commit (s.fb.read 0) v (fun r => r.withData f)) := by
  rcases parse_cases s with h | h | ⟨h, hl, hp⟩
  · exact .inl h
  · exact .inr (.inl h)
  · right; right
    have hlt := wireType_lt s
    by_cases h6 : 6 ≤ s.wireType
    · left
      refine ⟨h, hl, h6, ?_⟩
      rw [hp, State.dispatch, mtypeOf_read]
      have : s.wireType = 6 ∨ s.wireType = 7 := by omega
      rcases this with h' | h' <;> rw [h'] <;> rfl
    right
    by_cases h0 : s.wireType = 0
    · have hd : s.parse = s.invalidate.joinRequestBranch (s.fb.read 0) := by
        rw [hp, State.dispatch, mtypeOf_read, h0]; rfl
      rw [hd]
      by_cases h23 : s.len.toNat = 23
      · right; right; right; right; left
        refine ⟨h, h0, h23, ?_⟩
        rcases joinreqDecode_cases s.mac with ⟨h', -⟩ | ⟨-, h'⟩
        · simp at h'; omega
        · rw [State.joinRequestBranch, mac_invalidate, h', sub_mac _ _ _ (by omega), sub_mac _ _ _ (by omega),
            sub_mac _ _ _ (by omega)]
      · left
        refine ⟨h, hl, h0, h23, ?_⟩
        rcases joinreqDecode_cases s.mac with ⟨-, h'⟩ | ⟨h', -⟩
        · rw [State.joinRequestBranch, mac_invalidate, h']
        · simp at h'; omega
    right
    by_cases h1 : s.wireType = 1
    · have hd : s.parse = s.invalidate.joinAcceptBranch (s.fb.read 0) := by
        rw [hp, State.dispatch, mtypeOf_read, h1]; rfl
      rw [hd]
      by_cases h23 : s.len.toNat = 17 ∨ s.len.toNat = 33
      · right; right; right; right; left
        refine ⟨h, h1, h23, ?_⟩
        rcases joinaccDecode_cases s.mac with ⟨h', h'', -⟩ | ⟨-, h'⟩
        · simp at h' h''; omega
        · rw [State.joinAcceptBranch, mac_invalidate, h', sub_mac _ _ _ (by omega), sub_mac _ _ _ (by omega),
            sub_mac _ _ _ (by omega), byteAt_mac _ _ (by omega), byteAt_mac _ _ (by omega)]
          have e : (s.mac.length = 28) = (s.len.toNat = 33) := by simp; omega
          by_cases h33 : s.len.toNat = 33
          · simp only [length_mac, h33]
            simp
            rw [sub_mac _ _ _ (by omega)]
          · simp only [e, h33]; simp
      · left
        refine ⟨h, hl, h1, by omega, by omega, ?_⟩
        rcases joinaccDecode_cases s.mac with ⟨-, -, h'⟩ | ⟨h', -⟩
        · rw [State.joinAcceptBranch, mac_invalidate, h']
        · simp at h'; omega
    right
    have hd : ∃ v d, v.tag.toNat = s.wireType ∧ v ≠ .noVariant ∧ v ≠ .joinRequest ∧ v ≠ .joinAccept ∧
        d.toByte.toNat = s.wireType % 2 ∧ s.parse = s.invalidate.dataBranch (s.fb.read 0) v d := by
      have : s.wireType = 2 ∨ s.wireType = 3 ∨ s.wireType = 4 ∨ s.wireType = 5 := by omega
      rw [hp, State.dispatch, mtypeOf_read]
      rcases this with h' | h' | h' | h' <;> rw [h']
      · exact ⟨.unconfirmedDataUp, .uplink, rfl, by simp, by simp, by simp, rfl, rfl⟩
      · exact ⟨.unconfirmedDataDown, .downlink, rfl, by simp, by simp, by simp, rfl, rfl⟩
      · exact ⟨.confirmedDataUp, .uplink, rfl, by simp, by simp, by simp, rfl, rfl⟩
      · exact ⟨.confirmedDataDown, .downlink, rfl, by simp, by simp, by simp, rfl, rfl⟩
    obtain ⟨v, d, hv, hn, hn1, hn2, hdb, hd⟩ := hd
    rw [hd, State.dataBranch, mac_invalidate]
    rcases fhdrDecode_cases s.mac d with ⟨h', he⟩ | ⟨h', h'', he⟩ | ⟨h', -⟩
    · left
      refine ⟨h, hl, by omega, by omega, by simp at h'; omega, ?_⟩
      simp only [dataDecode, he]
    · right; left
      rw [byteAt_mac_four s (by simp at h'; omega)] at h''
      simp at h' h''
      refine ⟨h, by omega, by omega, by omega, by omega, ?_⟩
      simp only [dataDecode, he]
    · right; right; right; right
      rw [byteAt_mac_four s (by simp at h'; omega)] at h'
      simp at h'
      have hfit : 12 + s.wireFOptsLen ≤ s.len.toNat := by omega
      obtain ⟨f, hf, -⟩ := dataDecode_fits s d hfit
      exact ⟨h, by omega, by omega, hfit, v, d, f, hv, hn, hn1, hn2, hdb, hf, by rw [hf]⟩

/-- What PARSE did when it leaves a variant held. -/
theorem parse_held_cases (s : State) (hv : s.parse.variant ≠ .noVariant) :
    (s.wireType = 0 ∧ s.len.toNat = 23 ∧ s.parse = s.invalidate.commit (s.fb.read 0) .joinRequest
      (fun r => r.withJoinRequest {
        appeui := BitVec.ofNat 64 (le (s.fb.slice 1 8))
        deveui := BitVec.ofNat 64 (le (s.fb.slice 9 8))
        devnonce := fit 2 (s.fb.slice 17 2) })) ∨
    (s.wireType = 1 ∧ (s.len.toNat = 17 ∨ s.len.toNat = 33) ∧ s.parse = s.invalidate.commit (s.fb.read 0) .joinAccept
      (fun r => r.withJoinAccept {
        appnonce := fit 3 (s.fb.slice 1 3)
        netid := fit 3 (s.fb.slice 4 3)
        devaddr := BitVec.ofNat 32 (le (s.fb.slice 7 4))
        dlsettings := s.fb.read 11
        rxdelay := s.fb.read 12
        cflistp := decide (s.len.toNat = 33)
        cflist := if s.len.toNat = 33 then fit 16 (s.fb.slice 13 16) else Vector.replicate 16 0 })) ∨
    (2 ≤ s.wireType ∧ s.wireType ≤ 5 ∧ 12 + s.wireFOptsLen ≤ s.len.toNat ∧
      ∃ v d f, v.tag.toNat = s.wireType ∧ v ≠ .noVariant ∧ v ≠ .joinRequest ∧ v ≠ .joinAccept ∧
          d.toByte.toNat = s.wireType % 2 ∧ dataDecode s.mac d = .ok f ∧
          s.parse = s.invalidate.commit (s.fb.read 0) v (fun r => r.withData f)) := by
  rcases parse_outcomes s with ⟨h, hp⟩ | ⟨h, h1, hp⟩ | ⟨h, h1, h2, hp⟩ | ⟨h, h1, h2, h3, hp⟩ | ⟨h, h1, h2, h3, h4,
      hp⟩ |
    ⟨h, h1, h2, h3, h4, hp⟩ | ⟨h, h1, h2, h3, h4, hp⟩ | ⟨h, h1, h2, hp⟩ | ⟨h, h1, h2, hp⟩ | ⟨h, h1, h2, h3, hp⟩
  · rw [hp] at hv; exact absurd rfl hv
  · rw [hp] at hv; exact absurd rfl hv
  · rw [hp] at hv; exact absurd rfl hv
  · rw [hp] at hv; exact absurd rfl hv
  · rw [hp] at hv; exact absurd rfl hv
  · rw [hp] at hv; exact absurd rfl hv
  · rw [hp] at hv; exact absurd rfl hv
  · exact .inl ⟨h1, h2, hp⟩
  · exact .inr (.inl ⟨h1, h2, hp⟩)
  · exact .inr (.inr ⟨h1, h2, h3, hp⟩)

/-- PARSE writes VARIANT, the parse results, ERR and ERRSUB over INVALIDATE() and nothing else (R125). -/
theorem parse_frame (s : State) :
    s.parse = { s.invalidate with
      variant := s.parse.variant, results := s.parse.results, err := s.parse.err, errsub := s.parse.errsub } := by
  rcases parse_cases s with ⟨-, h⟩ | ⟨-, -, h⟩ | ⟨-, -, h⟩
  · rw [h]; rfl
  · rw [h]; rfl
  · rw [h]
    rcases dispatch_cases s.invalidate (s.fb.read 0) with ⟨e, -, -, h⟩ | ⟨v, f, -, h⟩ <;> rw [h] <;> rfl

/-- PARSE depends on what INVALIDATE() leaves only. -/
theorem parse_congr (s t : State) (h : s.invalidate = t.invalidate) : s.parse = t.parse := by
  have e1 : s.fb = t.fb := congrArg (·.fb) h
  have e2 : s.len = t.len := congrArg (·.len) h
  have e3 : s.ovf = t.ovf := congrArg (·.ovf) h
  unfold State.parse
  rw [h, e1, e2, e3]

end Sys2Proof.Machine
end

