-- ==== Sys2Proof/Laws/PerInstr.lean ====
section
/-! SUPPORT. The per-instruction family EncodedSize: a well-formed instruction is encoded in as many bytes as its format
gives it. -/

namespace Sys2Proof.Laws

/-- The encoding has the size of the instruction (R61, R63, R64, R71; log 9 for the carrier of a command word). -/
def EncodedSize.Statement (i : Instr) : Prop := i.wf = true → (encode i).length = i.size

theorem EncodedSize.nop (d : Byte) : EncodedSize.Statement (.nop d) := fun _ => rfl

theorem EncodedSize.clear (d : Byte) : EncodedSize.Statement (.clear d) := fun _ => rfl

theorem EncodedSize.push (d : Byte) : EncodedSize.Statement (.push d) := fun _ => rfl

theorem EncodedSize.parse (d : Byte) : EncodedSize.Statement (.parse d) := fun _ => rfl

theorem EncodedSize.calcmic (d : Byte) (key : List Byte) : EncodedSize.Statement (.calcmic d key) := fun h => by
  have hk : key.length = 16 := by simpa [Instr.wf, keyOk] using h
  simp [encode, commandBytes, Instr.size, hk]

theorem EncodedSize.verify (d : Byte) (key : List Byte) : EncodedSize.Statement (.verify d key) := fun h => by
  have hk : key.length = 16 := by simpa [Instr.wf, keyOk] using h
  simp [encode, commandBytes, Instr.size, hk]

theorem EncodedSize.serialize (d : Byte) : EncodedSize.Statement (.serialize d) := fun _ => rfl

theorem EncodedSize.reserved7 (d : Byte) : EncodedSize.Statement (.reserved7 d) := fun _ => rfl

theorem EncodedSize.reserved8 (d : Byte) : EncodedSize.Statement (.reserved8 d) := fun _ => rfl

theorem EncodedSize.reserved9 (d : Byte) : EncodedSize.Statement (.reserved9 d) := fun _ => rfl

theorem EncodedSize.reservedA (d : Byte) : EncodedSize.Statement (.reservedA d) := fun _ => rfl

theorem EncodedSize.reservedB (d : Byte) : EncodedSize.Statement (.reservedB d) := fun _ => rfl

theorem EncodedSize.reservedC (d : Byte) : EncodedSize.Statement (.reservedC d) := fun _ => rfl

theorem EncodedSize.reservedD (d : Byte) : EncodedSize.Statement (.reservedD d) := fun _ => rfl

theorem EncodedSize.reservedE (d : Byte) : EncodedSize.Statement (.reservedE d) := fun _ => rfl

theorem EncodedSize.reservedF (d : Byte) : EncodedSize.Statement (.reservedF d) := fun _ => rfl

theorem EncodedSize.joinRequest (low : BitVec 5) : EncodedSize.Statement (.joinRequest low) := fun _ => rfl

theorem EncodedSize.joinAccept (low : BitVec 5) : EncodedSize.Statement (.joinAccept low) := fun _ => rfl

theorem EncodedSize.unconfirmedDataUp (low : BitVec 5) : EncodedSize.Statement (.unconfirmedDataUp low) := fun _ => rfl

theorem EncodedSize.unconfirmedDataDown (low : BitVec 5) : EncodedSize.Statement (.unconfirmedDataDown low) := fun _ => rfl

theorem EncodedSize.confirmedDataUp (low : BitVec 5) : EncodedSize.Statement (.confirmedDataUp low) := fun _ => rfl

theorem EncodedSize.confirmedDataDown (low : BitVec 5) : EncodedSize.Statement (.confirmedDataDown low) := fun _ => rfl

theorem EncodedSize.unsupportedType6 (low : BitVec 5) : EncodedSize.Statement (.unsupportedType6 low) := fun _ => rfl

theorem EncodedSize.unsupportedType7 (low : BitVec 5) : EncodedSize.Statement (.unsupportedType7 low) := fun _ => rfl

theorem EncodedSize.fctrlUp (a : Bool) (q : Bool) (k : Bool) (r : Bool) (n : BitVec 4) : EncodedSize.Statement (.fctrlUp a q k r n) := fun _ => rfl

theorem EncodedSize.fctrlDown (a : Bool) (r : Bool) (k : Bool) (p : Bool) (n : BitVec 4) : EncodedSize.Statement (.fctrlDown a r k p n) := fun _ => rfl

end Sys2Proof.Laws
end

