-- ==== Sys2Proof/Laws/Step.lean ====
section
/-! SUPPORT. What the engine's move, a register read and a step can do, said once. -/

namespace Sys2Proof.Machine

/-- Everything the engine's move can do (R168, R171, R182, R236). -/
theorem respond_cases (s : State) :
    (s.busy = false ∧ respond s = .next s) ∨
    (∃ p, s.busy = true ∧ s.pend = some p ∧ respond s = .next (s.completeMic p.kind (cmac p.key p.msg))) ∨
    (s.busy = true ∧ s.pend = none ∧ respond s = .fault .busyWithoutRequest) := by
  unfold respond
  cases hb : s.busy with
  | false => exact .inl ⟨rfl, by simp⟩
  | true =>
    cases hp : s.pend with
    | none => exact .inr (.inr ⟨rfl, rfl, by simp⟩)
    | some p => exact .inr (.inl ⟨p, rfl, rfl, by simp⟩)

/-- A register read writes the model's rdData and draws only (R24, R49). -/
theorem readPort_frame (s : State) (no : BitVec 6) (idx : Nat) :
    ∃ v n, s.readPort no idx = { s with rdData := v, draws := n } := by
  unfold State.readPort
  split
  · exact ⟨_, _, rfl⟩
  · exact ⟨_, _, rfl⟩

/-- Everything a step can do: one case for each kind of move. -/
theorem step_cases (s : State) :
    (s.moves = [] ∧ step s = respond s) ∨
    (∃ cw key rest, s.moves = .command cw key :: rest ∧ s.busy = true ∧ step s = respond s) ∨
    (∃ cw key rest, s.moves = .command cw key :: rest ∧ s.busy = false ∧
      step s = exec (decodeCommand cw key) { s with moves := rest }) ∨
    (∃ rest, s.moves = .response :: rest ∧ step s = respond { s with moves := rest }) ∨
    (∃ no idx rest, s.moves = .read no idx :: rest ∧
      step s = .next (State.readPort { s with moves := rest } no idx)) ∨
    (∃ rest, s.moves = .reset :: rest ∧ step s = .next (State.applyReset { s with moves := rest })) := by
  unfold step
  cases hm : s.moves with
  | nil => exact .inl ⟨rfl, rfl⟩
  | cons m rest =>
    cases m with
    | command cw key =>
      cases hb : s.busy with
      | true => exact .inr (.inl ⟨cw, key, rest, rfl, rfl, by simp⟩)
      | false => exact .inr (.inr (.inl ⟨cw, key, rest, rfl, rfl, by simp [State.accept]⟩))
    | response => exact .inr (.inr (.inr (.inl ⟨rest, rfl, rfl⟩)))
    | read no idx => exact .inr (.inr (.inr (.inr (.inl ⟨no, idx, rest, rfl, rfl⟩))))
    | reset => exact .inr (.inr (.inr (.inr (.inr ⟨rest, rfl, rfl⟩))))

/-- A run begins with one step. -/
theorem run_succ (M : Host.Core) (k : Nat) (s s' : M.State) (h : M.step s = .next s') : M.run (k + 1) s = M.run k s' := by
  simp [Host.Core.run, h]

end Sys2Proof.Machine
end

