-- ==== Sys2Proof/Tests/Slice0.lean ====
section
/-! SUPPORT. The model's own tests: small states, single steps, expected values from spec/95_test_vectors.md (named V1 to
V5, 2.1 to 2.10, P1 to P6 there), and for every obligation with hypotheses a state that meets them. -/

namespace Sys2Proof.Tests

-- One theorem after another: many kernel evaluations at once would each take a thread.
set_option Elab.async false

open Sys2Proof.Machine

/-! ### Small states -/

/-- The reset state with this frame loaded (the state after LOAD). -/
def loaded (bytes : List Byte) : State :=
  { State.reset with fb := Memory.writeBytes [] 0 bytes, len := BitVec.ofNat 9 bytes.length }

/-- The state an instruction leaves. -/
def after (i : Instr) (s : State) : State :=
  match exec i s with
  | .next t => t
  | .fault _ => s
  | .refused _ => s

/-- The state a step leaves. -/
def stepped (s : State) : State :=
  match step s with
  | .next t => t
  | .fault _ => s
  | .refused _ => s

/-- Does an outcome go on? -/
def isNext : Host.Outcome State Fault Refusal → Bool
  | .next _ => true
  | .fault _ => false
  | .refused _ => false

theorem exec_after {i : Instr} {s : State} (h : isNext (exec i s) = true) : exec i s = .next (after i s) := by
  unfold after; cases he : exec i s <;> simp_all [isNext]

theorem step_stepped {s : State} (h : isNext (step s) = true) : step s = .next (stepped s) := by
  unfold stepped; cases he : step s <;> simp_all [isNext]

/-- A frame of n bytes with this MHdr, this FCtrl and 0x00 elsewhere. -/
def sized (n : Nat) (mhdr fctrl : Byte) : State :=
  { State.reset with
    fb := ((Memory.write [] 0 mhdr).write 5 fctrl), len := BitVec.ofNat 9 n }

/-- V1, an unconfirmed uplink with a payload. -/
def v1 : List Byte :=
  [0x40, 0xF1, 0x7D, 0xBE, 0x49, 0x00, 0x02, 0x00, 0x01, 0x95, 0x43, 0x78, 0x76, 0x2B, 0x11, 0xFF, 0x0D]

/-- V2, an unconfirmed downlink with an empty payload. -/
def v2 : List Byte :=
  [0x60, 0xF1, 0x7D, 0xBE, 0x49, 0x20, 0x02, 0x00, 0x01, 0xF9, 0xD6, 0x5D, 0x27]

/-- V3, a join-request. -/
def v3 : List Byte :=
  [0x00, 0xDC, 0x00, 0x00, 0xD0, 0x7E, 0xD5, 0xB3, 0x70, 0x1E, 0x6F, 0xED, 0xF5, 0x7C, 0xEE, 0xAF, 0x00, 0xC8,
   0x86, 0x03, 0x0A, 0xF2, 0xC9]

/-- V4, a join-accept with CFList. -/
def v4 : List Byte :=
  [0x20, 0x81, 0x3F, 0x47, 0xF5, 0x08, 0xFF, 0xA2, 0x67, 0x0B, 0x6E, 0x23, 0xE0, 0x1F, 0x84, 0xB9, 0xE2, 0x5D,
   0x9C, 0x41, 0x15, 0xF0, 0x2E, 0xEA, 0x0B, 0x3D, 0xD3, 0xE2, 0x0B, 0x3E, 0xCA, 0x92, 0xDA]

/-- The join-accept of P5, without CFList. -/
def v4short : List Byte :=
  [0x20, 0x81, 0x3F, 0x47, 0xF5, 0x08, 0xFF, 0xA2, 0x67, 0x0B, 0x6E, 0x23, 0xE0, 0xD2, 0x66, 0xC7, 0x50]

/-- V5, the uplink whose MIC the source states. -/
def v5 : List Byte :=
  [0x40, 0xF1, 0x7D, 0xBE, 0x49, 0x00, 0x03, 0x00, 0x01, 0x2A, 0x35, 0x18, 0xAF]

/-- The last row of 2.2: a confirmed downlink with fifteen bytes of FOpts. -/
def vLast : List Byte :=
  [0xA0, 0x04, 0x03, 0x02, 0x01, 0x9F, 0xFF, 0xFF, 0xB0, 0xB1, 0xB2, 0xB3, 0xB4, 0xB5, 0xB6, 0xB7, 0xB8, 0xB9,
   0xBA, 0xBB, 0xBC, 0xBD, 0xBE, 0xE0, 0x01, 0x02, 0x11, 0x22, 0x33, 0x44]

/-- The key of V5. -/
def key5 : List Byte :=
  [0x44, 0x02, 0x42, 0x41, 0xED, 0x4C, 0xE9, 0xA6, 0x8C, 0x6A, 0x8B, 0xC0, 0x55, 0x23, 0x3F, 0xD3]

/-- key5 as the operand of a command word. -/
def key5v : Key := ⟨key5.toArray, rfl⟩

/-- V5 loaded and parsed. -/
def parsed5 : State := (loaded v5).parse

/-- V5 parsed, VERIFY issued. -/
def busy5 : State := after (.verify 0 key5) parsed5

/-! ### WellFormed refuses an ill-formed term for each check -/

theorem test_wf_calcmic_key :
    (Instr.calcmic 0 key5).wf = true ∧ (Instr.calcmic 0 []).wf = false ∧
    (Instr.calcmic 0 (key5.drop 1)).wf = false := by decide

theorem test_wf_verify_key :
    (Instr.verify 0 key5).wf = true ∧ (Instr.verify 0 (0 :: key5)).wf = false := by decide

/-! ### Decoding, from words written out from the spec's encodings (R62, R63, R64, R71, R72) -/

/-- The words of P1 to P4 and of 2.9, and every reserved code: code in bits 11:8, data in bits 7:0. -/
theorem test_decode_commands :
    decode .cmd [0b00000000, 0b0000] = .ok (.nop 0, []) ∧
    decode .cmd [0b00000000, 0b0001] = .ok (.clear 0, []) ∧
    decode .cmd [0b01000000, 0b0010] = .ok (.push 0x40, []) ∧
    decode .cmd [0b00000000, 0b0011] = .ok (.parse 0, []) ∧
    decode .cmd (0b00000000 :: 0b0100 :: key5) = .ok (.calcmic 0 key5, []) ∧
    decode .cmd (0b00000000 :: 0b0101 :: key5) = .ok (.verify 0 key5, []) ∧
    decode .cmd [0b00000000, 0b0110] = .ok (.serialize 0, []) := ⟨rfl, rfl, rfl, rfl, rfl, rfl, rfl⟩

theorem test_decode_reserved :
    decode .cmd [0b10101011, 0b0111] = .ok (.reserved7 0xAB, []) ∧
    decode .cmd [0b00000000, 0b1000] = .ok (.reserved8 0, []) ∧
    decode .cmd [0b00000000, 0b1001] = .ok (.reserved9 0, []) ∧
    decode .cmd [0b00000000, 0b1010] = .ok (.reservedA 0, []) ∧
    decode .cmd [0b00000000, 0b1011] = .ok (.reservedB 0, []) ∧
    decode .cmd [0b00000000, 0b1100] = .ok (.reservedC 0, []) ∧
    decode .cmd [0b00000000, 0b1101] = .ok (.reservedD 0, []) ∧
    decode .cmd [0b00000000, 0b1110] = .ok (.reservedE 0, []) ∧
    decode .cmd [0b00000000, 0b1111] = .ok (.reservedF 0, []) := ⟨rfl, rfl, rfl, rfl, rfl, rfl, rfl, rfl, rfl⟩

/-- Type code in bits 7:5; the low five bits are kept (0x5F and 0xFF are rows of 2.3). -/
theorem test_decode_mhdr :
    decode .mhdr [0b00000000] = .ok (.joinRequest 0, []) ∧
    decode .mhdr [0b00100000] = .ok (.joinAccept 0, []) ∧
    decode .mhdr [0b01011111] = .ok (.unconfirmedDataUp 31, []) ∧
    decode .mhdr [0b01100000] = .ok (.unconfirmedDataDown 0, []) ∧
    decode .mhdr [0b10000000] = .ok (.confirmedDataUp 0, []) ∧
    decode .mhdr [0b10100000] = .ok (.confirmedDataDown 0, []) ∧
    decode .mhdr [0b11000000] = .ok (.unsupportedType6 0, []) ∧
    decode .mhdr [0b11111111] = .ok (.unsupportedType7 31, []) := ⟨rfl, rfl, rfl, rfl, rfl, rfl, rfl, rfl⟩

/-- The rows 0xA5 and 0x10 of 2.1 in both directions. -/
theorem test_decode_fctrl :
    decode .fctrlUp [0b10100101] = .ok (.fctrlUp true false true false 5, []) ∧
    decode .fctrlUp [0b00010000] = .ok (.fctrlUp false false false true 0, []) ∧
    decode .fctrlDown [0b10100101] = .ok (.fctrlDown true false true false 5, []) ∧
    decode .fctrlDown [0b00010000] = .ok (.fctrlDown false false false true 0, []) := ⟨rfl, rfl, rfl, rfl⟩

theorem test_decode_rejects :
    decode .cmd [] = .error .noBytes ∧ decode .cmd [0x00] = .error .halfCommandWord ∧
    decode .cmd [0x00, 0x10] = .error .widerThanTwelveBits ∧
    decode .cmd (0x00 :: 0x04 :: key5.drop 1) = .error .keyShort ∧ decode .mhdr [] = .error .noBytes :=
  ⟨rfl, rfl, rfl, rfl, rfl⟩

theorem test_encode_words :
    encode (.push 0x2F) = [0x2F, 0x02] ∧ encode (.reserved9 0) = [0x00, 0x09] ∧
    encode (.unconfirmedDataUp 0) = [0x40] ∧ encode (.confirmedDataDown 0) = [0xA0] ∧
    encode (.fctrlUp true true true true 15) = [0xFF] ∧ encode (.fctrlDown false false true false 0) = [0x20] := by
  decide

theorem test_table_words :
    decodeTableWord 16 0x240 = some (.push 0x40) ∧ decodeTableWord 16 0x1000 = none ∧
    decodeTableWord 8 0xC0 = some (.unsupportedType6 0) ∧
    decodeTableWord 16 0x500 = some (.verify 0 (List.replicate 16 0)) := by decide

/-! ### The CMAC engine: the known answers of `47_cmac_interface.md` section 2.3 -/

theorem test_aes_fips197 :
    aes [0x00, 0x01, 0x02, 0x03, 0x04, 0x05, 0x06, 0x07, 0x08, 0x09, 0x0A, 0x0B, 0x0C, 0x0D, 0x0E, 0x0F]
        [0x00, 0x11, 0x22, 0x33, 0x44, 0x55, 0x66, 0x77, 0x88, 0x99, 0xAA, 0xBB, 0xCC, 0xDD, 0xEE, 0xFF] =
      [0x69, 0xC4, 0xE0, 0xD8, 0x6A, 0x7B, 0x04, 0x30, 0xD8, 0xCD, 0xB7, 0x80, 0x70, 0xB4, 0xC5, 0x5A] := by
  decide +kernel

/-- The key of RFC 4493 section 4. -/
def rfcKey : List Byte :=
  [0x2B, 0x7E, 0x15, 0x16, 0x28, 0xAE, 0xD2, 0xA6, 0xAB, 0xF7, 0x15, 0x88, 0x09, 0xCF, 0x4F, 0x3C]

/-- RFC 4493: the empty message (padding, K2) and one whole block (K1). -/
theorem test_cmac_rfc4493 :
    cmac rfcKey [] = 
      [0xBB, 0x1D, 0x69, 0x29, 0xE9, 0x59, 0x37, 0x28, 0x7F, 0xA3, 0x7D, 0x12, 0x9B, 0x75, 0x67, 0x46] ∧
    cmac rfcKey [0x6B, 0xC1, 0xBE, 0xE2, 0x2E, 0x40, 0x9F, 0x96, 0xE9, 0x3D, 0x7E, 0x11, 0x73, 0x93, 0x17, 0x2A] =
      [0x07, 0x0A, 0x16, 0xB4, 0x6B, 0x4D, 0x41, 0x44, 0xF7, 0x9B, 0xDD, 0x9D, 0xD0, 0x4A, 0x28, 0x7C] := by
  decide +kernel

/-! ### Single steps: the host commands (2.9, 2.10) -/

theorem test_nop_keeps_error :
    (after (.nop 0xC3) (after (.reserved9 0) (loaded v5))).errReg = 0x95 := by decide +kernel

theorem test_clear_after_parse : after (.clear 0) parsed5 = { State.reset with fb := parsed5.fb } := by decide +kernel

theorem test_push_first : (after (.push 0x40) State.reset).fb = [(0,
 0x40)] ∧ (after (.push 0x40) State.reset).len = 1 := by
  decide +kernel

/-- 2.9: a PUSH after a parse drops the results; the error of 2.3 is cleared. -/
theorem test_push_invalidates :
    (after (.push 0xFF) parsed5).len = 14 ∧ (after (.push 0xFF) parsed5).variant = .noVariant ∧
    (after (.push 0xFF) parsed5).results = Results.reset := by decide +kernel

theorem test_push_full :
    (after (.push 0xFF) (sized 255 0x40 0)).ovf = true ∧ (after (.push 0xFF) (sized 255 0x40 0)).len = 255 ∧
    (after (.push 0xFF) (sized 254 0x40 0)).ovf = false ∧ (after (.push 0xFF) (sized 254 0x40 0)).len = 255 := by
  decide +kernel

theorem test_reserved_codes :
    (after (.reserved7 0xAB) parsed5).errReg = 0x75 ∧ (after (.reserved8 0) parsed5).errReg = 0x85 ∧
    (after (.reserved9 0) parsed5).errReg = 0x95 ∧ (after (.reservedA 0) parsed5).errReg = 0xA5 ∧
    (after (.reservedB 0) parsed5).errReg = 0xB5 ∧ (after (.reservedC 0) parsed5).errReg = 0xC5 ∧
    (after (.reservedD 0) parsed5).errReg = 0xD5 ∧ (after (.reservedE 0) parsed5).errReg = 0xE5 ∧
    (after (.reservedF 0) parsed5).errReg = 0xF5 ∧ (after (.reserved9 0) parsed5).status = 0x02 := by decide +kernel

/-! ### Single steps: PARSE and its rows (V1 to V4, 2.1 to 2.5) -/

theorem test_parse_v1 :
    let t := after (.parse 0) (loaded v1)
    t.variant = .unconfirmedDataUp ∧ t.status = 0x02 ∧ t.errReg = 0x00 ∧ t.results.devaddr = 0x49BE7DF1 ∧
    t.results.fcnt = 2 ∧ t.results.fport = 1 ∧ t.results.frmoff = 9 ∧ t.results.frmlen = 4 ∧
    t.frmPayload = [0x95, 0x43, 0x78, 0x76] ∧ t.results.mic.toList = [0x2B, 0x11, 0xFF, 0x0D] := by decide +kernel

theorem test_parse_errors :
    (after (.parse 0) State.reset).errReg = 0x12 ∧ (after (.parse 0) (sized 4 0xE0 0)).errReg = 0x12 ∧
    (after (.parse 0) (sized 5 0xE0 0)).errReg = 0x71 ∧ (after (.parse 0) (sized 22 0x00 0)).errReg = 0x22 ∧
    (after (.parse 0) (sized 18 0x20 0)).errReg = 0x32 ∧ (after (.parse 0) (sized 9 0x40 0)).errReg = 0x42 ∧
    (after (.parse 0) (sized 11 0x40 0)).errReg = 0x52 ∧ (after (.parse 0) (sized 12 0x40 1)).errReg = 0x52 ∧
    (after (.parse 0) { sized 255 0x40 0 with ovf := true }).errReg = 0x04 := by decide +kernel

theorem test_join_request_v3 :
    let t := after (.joinRequest 0) (loaded v3)
    t.variant = .joinRequest ∧ t.results.maclen = 18 ∧ t.results.appeui = 0x70B3D57ED00000DC ∧
    t.results.deveui = 0x00AFEE7CF5ED6F1E ∧ t.results.devnonce.toList = [0xC8, 0x86] ∧
    t.results.mic.toList = [0x03, 0x0A, 0xF2, 0xC9] := by decide +kernel

theorem test_join_accept_v4 :
    let t := after (.joinAccept 0) (loaded v4)
    t.variant = .joinAccept ∧ t.results.appnonce.toList = [0x81, 0x3F, 0x47] ∧
    t.results.netid.toList = [0xF5, 0x08, 0xFF] ∧ t.results.devaddr = 0x6E0B67A2 ∧ t.results.dlsettings = 0x23 ∧
    t.results.rxdelay = 0xE0 ∧ t.results.cflistp = true ∧ t.results.cflist.toList =
      [0x1F, 0x84, 0xB9, 0xE2, 0x5D, 0x9C, 0x41, 0x15, 0xF0, 0x2E, 0xEA, 0x0B, 0x3D, 0xD3, 0xE2,
       0x0B] := by decide +kernel

theorem test_join_accept_short :
    (after (.joinAccept 0) (loaded v4short)).results.cflistp = false ∧
    (after (.joinAccept 0) (loaded v4short)).results.maclen = 12 := by decide +kernel

theorem test_unconfirmed_down_v2 :
    let t := after (.unconfirmedDataDown 0) (loaded v2)
    t.variant = .unconfirmedDataDown ∧ t.results.dir = .downlink ∧ t.results.ack = true ∧ t.results.fcflags = 0x04 ∧
    t.results.fportp = true ∧ t.results.fport = 1 ∧ t.results.frmlen = 0 ∧ t.results.frmoff = 0 := by decide +kernel

/-- 2.3: 0x5F is kept whole in MHDR. -/
theorem test_unconfirmed_up_low_bits :
    (after (.unconfirmedDataUp 31) (loaded v5)).results.mhdr = 0x5F ∧
    (after (.unconfirmedDataUp 31) (loaded v5)).results.mtype = 2 := by decide +kernel

theorem test_confirmed_up :
    (after (.confirmedDataUp 0) (loaded v1)).variant = .confirmedDataUp ∧
    (after (.confirmedDataUp 0) (loaded v1)).results.dir = .uplink := by decide +kernel

/-- The last row of 2.2. -/
theorem test_confirmed_down_options :
    let t := after (.confirmedDataDown 0) (loaded vLast)
    t.variant = .confirmedDataDown ∧ t.results.fcflags = 0x09 ∧ t.results.foptslen = 15 ∧ t.results.fhdrlen = 22 ∧
    t.results.fopts.toList.take 2 = [0xB0, 0xB1] ∧ t.results.fcnt = 65535 ∧ t.results.fport = 0xE0 ∧
    t.results.frmoff = 24 ∧ t.results.frmlen = 2 ∧ t.results.mic.toList = [0x11, 0x22, 0x33,
     0x44] := by decide +kernel

theorem test_unsupported_types :
    (after (.unsupportedType6 0) State.reset).errReg = 0x61 ∧
    (after (.unsupportedType7 0) State.reset).errReg = 0x71 := by
  decide +kernel

/-- The FCFLAGS of the rows 0xF0 and 0xA5 of 2.1 in both directions. -/
theorem test_fctrl_rows :
    (after (.fctrlUp true true true true 0) State.reset).results.fcflags = 0x17 ∧
    (after (.fctrlDown true true true true 0) State.reset).results.fcflags = 0x1D ∧
    (after (.fctrlUp true false true false 5) State.reset).results.foptslen = 5 ∧
    (after (.fctrlDown true false true false 5) State.reset).results.fctrl = 0xA5 := by decide +kernel

/-! ### Single steps: the MIC commands, SERIALIZE, reset (P1 to P6, 2.6 to 2.10) -/

/-- P1 after the VERIFY issue step. -/
theorem test_verify_issue :
    busy5.status = 0x03 ∧ busy5.pend = some {
      kind := .verify, key := key5
      msg := [0x49, 0x00, 0x00, 0x00, 0x00, 0x00, 0xF1, 0x7D, 0xBE, 0x49, 0x03, 0x00, 0x00, 0x00, 0x00, 0x09] ++
        [0x40, 0xF1, 0x7D, 0xBE, 0x49, 0x00, 0x03, 0x00, 0x01] } := by
  decide +kernel

/-- P1 after the response. -/
theorem test_verify_completion :
    (stepped busy5).status = 0x0E ∧ (stepped busy5).cmic.toList = [0x2A, 0x35, 0x18, 0xAF] := by decide +kernel

theorem test_verify_nothing_held : (after (.verify 0 key5) (after (.calcmic 0 key5) State.reset)).errReg = 0x03 := by
  decide +kernel

theorem test_calcmic_nothing_held :
    (after (.calcmic 0 key5) State.reset).errReg = 0x03 ∧ (after (.calcmic 0 key5) State.reset).busy = false := by
  decide +kernel

/-- V5: CALCMIC then the response gives STATUS 0x06. -/
theorem test_calcmic_completion : (stepped (after (.calcmic 0 key5) parsed5)).status = 0x06 := by decide +kernel

theorem test_serialize_v5 :
    (after (.serialize 0) parsed5).olen = 13 ∧ (after (.serialize 0) parsed5).ob.slice 0 13 = v5 := by decide +kernel

theorem test_serialize_nothing_held :
    (after (.serialize 0) { State.reset with olen := 7 }).olen = 0 := by decide +kernel

/-- P6: reset while busy; the late response is discarded. -/
theorem test_reset_while_busy :
    stepped (stepped { busy5 with moves := [.reset, .response] }) = State.reset := by decide +kernel

theorem test_port :
    parsed5.port 0x00 0 = .value 0x02 ∧ parsed5.port 0x09 0 = .value 0x49BE7DF1 ∧
    parsed5.port 0x07 1 = .value 0x35 ∧ parsed5.port 0x20 0 = .value 0x40 := by decide +kernel

/-! ### For every obligation with hypotheses, a state and operands that meet them (each clause at a boundary) -/

/-- An engine that has just answered: what a step from busy5 leaves. -/
def verified5 : State := stepped busy5

/-- The request that V5 makes. -/
def request5 (kind : MicKind) : Request := { kind := kind, key := key5, msg := parsed5.micIn }

/-- V5 with its last MIC byte changed. -/
def forged5 : State := loaded (v5.take 12 ++ [0xAE])

theorem witness_ClearStartsNewFrame : parsed5.busy = false ∧ parsed5.pend = none := by decide +kernel

theorem witness_PushAppendsOrOverflows :
    (sized 254 0x40 0).config.ok = true ∧ (sized 254 0x40 0).fb.wf = true ∧
    (sized 254 0x40 0).len.toNat < (sized 254 0x40 0).config.phyMax ∧
    (sized 255 0x40 0).config.ok = true ∧ (sized 255 0x40 0).fb.wf = true ∧
    (sized 255 0x40 0).config.phyMax ≤ (sized 255 0x40 0).len.toNat := by decide +kernel

theorem witness_ReservedCodesRecordBadCommand :
    7 ≤ ((0x7AB : CmdWord).extractLsb' 8 4).toNat ∧ 7 ≤ ((0xF00 : CmdWord).extractLsb' 8 4).toNat := by decide

/-- 0x3FF is a PARSE as 0x300 is; two PUSH words must agree in their data, two MIC commands in their key. -/
theorem witness_UnusedOperandBitsIgnored :
    (∀ op : BitVec 4, (op = 0x3 →
      (0x3FF : CmdWord).extractLsb' 8 4 = (0x300 : CmdWord).extractLsb' 8 4 ∧
      ((0x3FF : CmdWord).extractLsb' 8 4 = 0x2 → (0x3FF : CmdWord).extractLsb' 0 8 = (0x300 : CmdWord).extractLsb' 0 8) ∧
      ((0x3FF : CmdWord).extractLsb' 8 4 = 0x4 ∨ (0x3FF : CmdWord).extractLsb' 8 4 = 0x5 → key5v = zeroKey))) ∧
    ((0x4FF : CmdWord).extractLsb' 8 4 = (0x400 : CmdWord).extractLsb' 8 4 ∧
      ((0x4FF : CmdWord).extractLsb' 8 4 = 0x2 → (0x4FF : CmdWord).extractLsb' 0 8 = (0x400 : CmdWord).extractLsb' 0 8) ∧
      ((0x4FF : CmdWord).extractLsb' 8 4 = 0x4 ∨ (0x4FF : CmdWord).extractLsb' 8 4 = 0x5 → key5v = key5v)) := by
  decide +kernel

/-- The clauses on i: the first and the last byte of a frame that fits, and a frame one byte too long for PHY_MAX = 33. -/
theorem witness_LoadFillsFrameBuffer :
    State.reset.config.ok = true ∧ State.reset.fb.wf = true ∧ State.reset.busy = false ∧
    0 < min v5.length State.reset.config.phyMax ∧ 12 < min v5.length State.reset.config.phyMax ∧
    ({ State.reset with config := { phyMax := 33 } } : State).config.ok = true ∧
    32 < min (v4 ++ [0x00]).length 33 ∧ 33 < (v4 ++ [0x00]).length := by decide +kernel

theorem witness_HeaderRoundTrip :
    (∃ h, fhdrDecode (sub v5 1 7) .uplink = .ok h ∧ h.fc.foptslen = 0) ∧
    (∃ h, fhdrDecode (sub vLast 1 25) .downlink = .ok h ∧ h.fc.foptslen = 15) :=
  ⟨⟨_, rfl, by decide +kernel⟩, ⟨_, rfl, by decide +kernel⟩⟩

theorem witness_ParseRefusesOverflow : ({ sized 255 0x40 0 with ovf := true } : State).ovf = true := rfl

theorem witness_ParseRefusesShortFrame :
    (sized 4 0xE0 0).ovf = false ∧ (sized 4 0xE0 0).len.toNat < 5 ∧ State.reset.ovf = false ∧
    State.reset.len.toNat < 5 := by decide

theorem witness_ParseRunsTheMhdrRow : (sized 5 0xE0 0).ovf = false ∧ 5 ≤ (sized 5 0xE0 0).len.toNat := by decide

theorem witness_UnsupportedTypeRows :
    (sized 5 0xC0 0).ovf = false ∧ 5 ≤ (sized 5 0xC0 0).len.toNat ∧ 6 ≤ (sized 5 0xC0 0).wireType ∧
    (sized 5 0xFF 0).ovf = false ∧ 5 ≤ (sized 5 0xFF 0).len.toNat ∧ 6 ≤ (sized 5 0xFF 0).wireType := by decide +kernel

theorem witness_JoinRequestRow :
    5 ≤ (sized 23 0 0).len.toNat ∧ (sized 23 0 0).len.toNat = 23 ∧
    5 ≤ (sized 22 0 0).len.toNat ∧ (sized 22 0 0).len.toNat ≠ 23 ∧
    5 ≤ (sized 24 0 0).len.toNat ∧ (sized 24 0 0).len.toNat ≠ 23 := by decide

theorem witness_JoinAcceptRow :
    5 ≤ (sized 17 0x20 0).len.toNat ∧ (sized 17 0x20 0).len.toNat = 17 ∧
    5 ≤ (sized 33 0x20 0).len.toNat ∧ (sized 33 0x20 0).len.toNat = 33 ∧
    5 ≤ (sized 18 0x20 0).len.toNat ∧ (sized 18 0x20 0).len.toNat ≠ 17 ∧ (sized 18 0x20 0).len.toNat ≠ 33 ∧
    5 ≤ (sized 32 0x20 0).len.toNat ∧ (sized 32 0x20 0).len.toNat ≠ 17 ∧ (sized 32 0x20 0).len.toNat ≠ 33 := by decide

theorem witness_DataRowsCheckTheHeader :
    5 ≤ (sized 9 0x40 0xFF).len.toNat ∧ (sized 9 0x40 0xFF).len.toNat < 10 ∧
    10 ≤ (sized 10 0x40 0).len.toNat ∧ (sized 10 0x40 0).len.toNat < 12 + (sized 10 0x40 0).wireFOptsLen ∧
    10 ≤ (sized 26 0x40 15).len.toNat ∧ (sized 26 0x40 15).len.toNat < 12 + (sized 26 0x40 15).wireFOptsLen ∧
    (dataRows 0).length = 4 := by decide +kernel

/-- The hypothesis, and the clauses without FPort, with FPort alone and with one payload byte. -/
theorem witness_DataRowsUnpackTheMessage :
    12 + (sized 12 0x40 0).wireFOptsLen ≤ (sized 12 0x40 0).len.toNat ∧
    (sized 12 0x40 0).len.toNat = 12 + (sized 12 0x40 0).wireFOptsLen ∧
    12 + (sized 28 0x60 15).wireFOptsLen < (sized 28 0x60 15).len.toNat ∧
    (sized 28 0x60 15).len.toNat = 13 + (sized 28 0x60 15).wireFOptsLen ∧
    12 + (sized 14 0x80 0).wireFOptsLen < (sized 14 0x80 0).len.toNat ∧
    (Instr.confirmedDataDown 0, Variant.confirmedDataDown, Direction.downlink, 5#3) ∈ dataRows 0 := by decide +kernel

theorem witness_DataRowsRunTheFctrlRow :
    12 + (sized 27 0xA0 0xFF).wireFOptsLen ≤ (sized 27 0xA0 0xFF).len.toNat ∧
    (Instr.unconfirmedDataUp 0, Variant.unconfirmedDataUp, Direction.uplink, 2#3) ∈ dataRows 0 := by decide +kernel

theorem witness_ConfirmedDiffersInTagOnly :
    12 + (loaded v5).wireFOptsLen ≤ (loaded v5).len.toNat ∧
    (∃ t u, exec (.unconfirmedDataUp 0) (loaded v5) = .next t ∧ exec (.confirmedDataUp 0) (loaded v5) = .next u) ∧
    (∃ t u, exec (.unconfirmedDataDown 0) (loaded v5) = .next t ∧
    exec (.confirmedDataDown 0) (loaded v5) = .next u) :=
  ⟨by decide +kernel, ⟨_, _, exec_after (by decide +kernel), exec_after (by decide +kernel)⟩, ⟨_, _, exec_after (by decide +kernel), exec_after (by decide +kernel)⟩⟩

/-- Frames of each shape that fits at its boundary, and their neighbours that do not. -/
theorem witness_ParseSucceedsExactlyOnFittingFrames :
    (sized 23 0 0).ovf = false ∧ FrameFits (sized 23 0 0) ∧ FrameFits (sized 17 0x20 0) ∧
    FrameFits (sized 33 0x20 0) ∧
    FrameFits (sized 12 0x40 0) ∧ FrameFits (sized 27 0xA0 15) ∧
    ¬ FrameFits (sized 24 0 0) ∧ ¬ FrameFits (sized 16 0x20 0) ∧ ¬ FrameFits (sized 11 0x40 0) ∧
    ¬ FrameFits (sized 26 0xA0 15) ∧ ¬ FrameFits (sized 23 0xC0 0) := by
  refine ⟨rfl, ?_, ?_, ?_, ?_, ?_, ?_, ?_, ?_, ?_, ?_⟩ <;> unfold FrameFits <;> decide +kernel

/-- One state for each line of the priority list. -/
theorem witness_ParseErrorPriority :
    ({ sized 4 0xE0 0 with ovf := true } : State).ovf = true ∧
    ((sized 4 0xE0 0).ovf = false ∧ (sized 4 0xE0 0).len.toNat < 5) ∧
    (5 ≤ (sized 5 0xC0 0).len.toNat ∧ 6 ≤ (sized 5 0xC0 0).wireType) ∧
    ((sized 22 0 0).wireType = 0 ∧ ¬ FrameFits (sized 22 0 0)) ∧
    ((sized 18 0x20 0).wireType = 1 ∧ ¬ FrameFits (sized 18 0x20 0)) ∧
    ((sized 9 0x40 0).wireType = 2 ∧ (sized 9 0x40 0).len.toNat - 5 < 5 ∧ ¬ FrameFits (sized 9 0x40 0)) ∧
    ((sized 10 0x40 0).wireType = 2 ∧ ¬ (sized 10 0x40 0).len.toNat - 5 < 5 ∧ ¬ FrameFits (sized 10 0x40 0)) := by
  unfold FrameFits; decide +kernel

theorem witness_UnusedRegistersReadReset :
    (∃ t, exec (.parse 0) (loaded v3) = .next t ∧ t.variant = .joinRequest) ∧
    (∃ t, exec (.parse 0) (loaded v4) = .next t ∧ t.variant = .joinAccept) ∧
    (∃ t, exec (.parse 0) (loaded v5) = .next t ∧ t.variant = .unconfirmedDataUp) ∧
    (∃ t, exec (.parse 0) State.reset = .next t ∧ t.variant = .noVariant) :=
  ⟨⟨_, exec_after (by decide +kernel), by decide +kernel⟩, ⟨_, exec_after (by decide +kernel), by decide +kernel⟩, ⟨_, exec_after (by decide +kernel), by decide +kernel⟩, ⟨_, exec_after (by decide +kernel), by decide +kernel⟩⟩

/-- Type codes 2 and 5; no FPort, FPort alone, a payload. -/
theorem witness_DataLengthsAddUp :
    (∃ t, exec (.parse 0) (sized 12 0x40 0) = .next t ∧ t.variant.tag.toNat = 2 ∧ t.results.fportp = false) ∧
    (∃ t, exec (.parse 0) (loaded v5) = .next t ∧ 2 ≤ t.variant.tag.toNat ∧ t.variant.tag.toNat ≤ 5 ∧
    t.results.frmlen = 0) ∧
    (∃ t, exec (.parse 0) (loaded vLast) = .next t ∧ t.variant.tag.toNat = 5 ∧ 0 < t.results.frmlen.toNat) :=
  ⟨⟨_, exec_after (by decide +kernel), by decide +kernel⟩, ⟨_, exec_after (by decide +kernel), by decide +kernel⟩, ⟨_, exec_after (by decide +kernel), by decide +kernel⟩⟩

theorem witness_ParseIsIdempotent : ∃ t, exec (.parse 0) verified5 = .next t := ⟨_, exec_after (by decide +kernel)⟩

/-- Two states that agree up to LEN and differ above it. -/
theorem witness_ParseReadsTheFrameOnly :
    let s' : State := { loaded (v5 ++ [0x77]) with len := 13, olen := 9 }
    (loaded v5).len = s'.len ∧ (loaded v5).ovf = s'.ovf ∧
    (∀ i, i < (loaded v5).len.toNat → (loaded v5).fb.read i = s'.fb.read i) ∧
    (∃ t, exec (.parse 0) (loaded v5) = .next t) ∧ (∃ t', exec (.parse 1) s' = .next t') :=
  ⟨by decide +kernel, by decide +kernel, by decide +kernel, ⟨_, exec_after (by decide +kernel)⟩, ⟨_, exec_after (by decide +kernel)⟩⟩

theorem witness_MicInputLayout :
    (loaded v3).parse.variant = .joinRequest ∧ (loaded v4).parse.variant = .joinAccept ∧
    parsed5.variant = .unconfirmedDataUp ∧ (loaded v2).parse.variant = .unconfirmedDataDown ∧
    (sized 12 0x80 0).parse.variant = .confirmedDataUp ∧ (loaded vLast).parse.variant = .confirmedDataDown := by
  decide +kernel

theorem witness_FieldFormIsBufferForm :
    ∃ t, exec (.parse 0) (loaded vLast) = .next t ∧ t.variant ≠ .noVariant := ⟨_, exec_after (by decide +kernel), by decide +kernel⟩

theorem witness_MicInputLengths :
    (∃ t, exec (.parse 0) (loaded v3) = .next t ∧ t.variant = .joinRequest) ∧
    (∃ t, exec (.parse 0) (loaded v4) = .next t ∧ t.variant = .joinAccept ∧ t.results.cflistp = true) ∧
    (∃ t, exec (.parse 0) (loaded v4short) = .next t ∧ t.variant = .joinAccept ∧ t.results.cflistp = false) ∧
    (∃ t, exec (.parse 0) (sized 12 0x40 0) = .next t ∧ 2 ≤ t.variant.tag.toNat ∧ t.variant.tag.toNat ≤ 5) :=
  ⟨⟨_, exec_after (by decide +kernel), by decide +kernel⟩, ⟨_, exec_after (by decide +kernel), by decide +kernel⟩, ⟨_, exec_after (by decide +kernel), by decide +kernel⟩, ⟨_, exec_after (by decide +kernel), by decide +kernel⟩⟩

theorem witness_CalcmicIssue : parsed5.variant ≠ .noVariant ∧ State.reset.variant = .noVariant := by decide +kernel

theorem witness_VerifyIssue :
    parsed5.variant ≠ .noVariant ∧ State.reset.variant = .noVariant ∧
    ({ busy5 with moves := [.response] } : State).busy = true ∧
    ({ busy5 with moves := [.response] } : State).pend = some (request5 .verify) ∧
    (request5 .verify).kind = .verify := by decide +kernel

theorem witness_CompletionTakesTheTag :
    (∃ p, ({ busy5 with moves := [.response] } : State).busy = true ∧
      ({ busy5 with moves := [.response] } : State).pend = some p ∧ p.kind = .verify) ∧
    (∃ p, (after (.calcmic 0 key5) parsed5).busy = true ∧ (after (.calcmic 0 key5) parsed5).pend = some p ∧
      p.kind = .calc) :=
  ⟨⟨request5 .verify, by decide +kernel, by decide +kernel, rfl⟩, ⟨request5 .calc, by decide +kernel, by decide +kernel, rfl⟩⟩

theorem witness_TagHasSixteenBytes : key5.length = 16 := rfl

theorem witness_MicInputIgnoresTheStoredMic :
    (loaded v5).ovf = false ∧ forged5.ovf = false ∧ (loaded v5).len = forged5.len ∧
    (∀ i, i < (loaded v5).len.toNat - 4 → (loaded v5).fb.read i = forged5.fb.read i) ∧
    (∃ t, exec (.parse 0) (loaded v5) = .next t) ∧ (∃ t', exec (.parse 0) forged5 = .next t') :=
  ⟨by decide +kernel, by decide +kernel, by decide +kernel, by decide +kernel, ⟨_, exec_after (by decide +kernel)⟩, ⟨_, exec_after (by decide +kernel)⟩⟩

theorem witness_AlteredMessageChangesTheRequest :
    (loaded v5).len = forged5.len ∧
    (∃ t t', exec (.parse 0) (loaded v5) = .next t ∧ exec (.parse 0) forged5 = .next t' ∧ t.variant ≠ .noVariant ∧
      t'.variant ≠ .noVariant ∧ t.micIn = t'.micIn) ∧ 8 < (loaded v5).len.toNat - 4 :=
  ⟨by decide +kernel, ⟨_, _, exec_after (by decide +kernel), exec_after (by decide +kernel), by decide +kernel, by decide +kernel, by decide +kernel⟩, by decide +kernel⟩

theorem witness_VerifySeesEveryMicByte :
    (loaded v5).busy = false ∧ forged5.busy = false ∧ (loaded v5).ovf = false ∧ forged5.ovf = false ∧
    (loaded v5).len = forged5.len ∧ 5 ≤ (loaded v5).len.toNat ∧
    (∀ j, j < (loaded v5).len.toNat - 4 → (loaded v5).fb.read j = forged5.fb.read j) ∧
    (loaded v5).fb.read ((loaded v5).len.toNat - 4 + 3) ≠ forged5.fb.read ((loaded v5).len.toNat - 4 + 3) ∧
    (loaded v5).moves = [] ∧ forged5.moves = [] ∧
    (∃ p t u, exec (.parse 0) (loaded v5) = .next p ∧ exec (.verify 0 key5) p = .next t ∧ step t = .next u ∧
      u.micok = true) ∧
    (∃ p t u, exec (.parse 0) forged5 = .next p ∧ exec (.verify 0 key5) p = .next t ∧ step t = .next u) :=
  ⟨by decide +kernel, by decide +kernel, by decide +kernel, by decide +kernel, by decide +kernel, by decide +kernel,
    by decide +kernel, by decide +kernel, rfl, rfl, ⟨_, _, _, exec_after (by decide +kernel), exec_after (by decide +kernel), step_stepped (by decide +kernel), by decide +kernel⟩,
    ⟨_, _, _, exec_after (by decide +kernel), exec_after (by decide +kernel), step_stepped (by decide +kernel)⟩⟩

theorem witness_SerLayout :
    (loaded v3).parse.variant = .joinRequest ∧ (loaded v4).parse.variant = .joinAccept ∧
    parsed5.variant = .unconfirmedDataUp := by decide +kernel

theorem witness_SerializeWritesTheOutput :
    parsed5.ob.wf = true ∧ parsed5.ser.length < 512 ∧ parsed5.variant ≠ .noVariant ∧ 12 < parsed5.ser.length ∧
    parsed5.ser.length ≤ 13 ∧ State.reset.ob.wf = true ∧ State.reset.ser.length < 512 ∧
    State.reset.variant = .noVariant := by decide +kernel

theorem witness_SerializeRoundTrip :
    (loaded vLast).ob.wf = true ∧ (∃ t, exec (.parse 0) (loaded vLast) = .next t ∧ t.variant ≠ .noVariant) ∧
    29 < (loaded vLast).len.toNat := ⟨by decide +kernel, ⟨_, exec_after (by decide +kernel), by decide +kernel⟩, by decide +kernel⟩

/-- Each clause at the last index inside and the first outside. -/
theorem witness_PortReads :
    12 < (loaded v5).len.toNat ∧ (loaded v5).len.toNat ≤ 13 ∧
    12 < (after (.serialize 0) parsed5).olen.toNat ∧ (after (.serialize 0) parsed5).olen.toNat ≤ 13 ∧
    0x21 ≤ (0x21 : BitVec 6).toNat ∧ 0x21 ≤ (0x3F : BitVec 6).toNat := by decide +kernel

theorem witness_ReadsHaveNoSideEffect :
    ({ busy5 with moves := [.read 0x20 12] } : State).port 0x20 12 = .value 0xAF ∧
    ({ busy5 with moves := [.read 0x20 13] } : State).port 0x20 13 = .unspecified := by decide +kernel

theorem witness_ResetAbandonsTheRequest :
    ({ busy5 with moves := [.reset, .response] } : State).moves = .reset :: [.response] := rfl

theorem witness_LateResponseDiscarded :
    ({ parsed5 with moves := [.response] } : State).busy = false ∧
    ({ parsed5 with moves := [.response] } : State).moves = .response :: [] := by decide +kernel

theorem witness_StepRunsTheAcceptedCommand :
    ({ parsed5 with moves := [.command 0x500 key5v] } : State).busy = false ∧
    ({ parsed5 with moves := [.command 0x500 key5v] } : State).moves = .command 0x500 key5v :: [] := by decide +kernel

theorem witness_NoCommandAcceptedWhileBusy :
    ∃ p, ({ busy5 with moves := [.command 0x100 zeroKey] } : State).busy = true ∧
      ({ busy5 with moves := [.command 0x100 zeroKey] } : State).pend = some p ∧
      ({ busy5 with moves := [.command 0x100 zeroKey] } : State).moves = .command 0x100 zeroKey :: [] :=
  ⟨request5 .verify, by decide +kernel, by decide +kernel, rfl⟩

theorem witness_ParseResultsAreImmutable :
    ((0x400 : CmdWord).extractLsb' 8 4 ≠ 0x1 ∧ (0x400 : CmdWord).extractLsb' 8 4 ≠ 0x2 ∧
      (0x400 : CmdWord).extractLsb' 8 4 ≠ 0x3 ∧ ∃ t, exec (decodeCommand 0x400 key5v) parsed5 = .next t) ∧
    (∃ t, step { busy5 with moves := [.response] } = .next t) ∧
    (∃ t, step { busy5 with moves := [.read 0x20 13] } = .next t) :=
  ⟨⟨by decide, by decide, by decide, ⟨_, exec_after (by decide +kernel)⟩⟩, ⟨_, step_stepped (by decide +kernel)⟩, ⟨_, step_stepped (by decide +kernel)⟩⟩

/-- One word for each clause, the reserved ones at both ends. -/
theorem witness_WhoWritesErr :
    ∀ cw ∈ [(0x000 : CmdWord), 0x100, 0x2FF, 0x300, 0x400, 0x500, 0x600, 0x700, 0xFFF],
      ∃ t, exec (decodeCommand cw key5v) State.reset = .next t := by
  intro cw h
  simp only [List.mem_cons, List.not_mem_nil, or_false] at h
  rcases h with rfl | rfl | rfl | rfl | rfl | rfl | rfl | rfl | rfl <;> exact ⟨_, exec_after (by decide +kernel)⟩

theorem witness_DecodeInvertsEncode : (Instr.verify 0 key5).wf = true ∧ (Instr.push 0xFF).wf = true := by decide

theorem witness_EncodeInvertsDecode :
    decode .cmd (0x00 :: 0x04 :: key5 ++ [0x99]) = .ok (.calcmic 0 key5, [0x99]) ∧
    decode .fctrlDown [0x9F, 0xFF] = .ok (.fctrlDown true false false true 15, [0xFF]) := ⟨rfl, rfl⟩

theorem witness_FetchWordRunsTheInstruction : 0xFFF < 4096 ∧ 0xFF < 256 := by decide

/-- The reset state with a PARSE to come has the invariant, and the step from it answers. -/
theorem witness_InvariantKeptByStep :
    Inv { State.reset with moves := [.command 0x300 zeroKey] } ∧
    ∃ t, step { State.reset with moves := [.command 0x300 zeroKey] } = .next t := by
  refine ⟨?_, ⟨_, step_stepped (by decide +kernel)⟩⟩
  constructor
  · decide
  · decide
  · decide
  · decide
  · intro c h; cases h
  · decide
  · intro c h; cases h
  · intro h; exact absurd rfl h
  · intro _; rfl
  · exact .inl rfl
  · rfl
  · rfl
  · intro p h; cases h
  · intro _; rfl
  · intro _; exact ⟨rfl, rfl⟩
  · intro h; cases h
  · intro h; cases h

theorem witness_StepNeverStops : ∃ s, Inv s ∧ s.moves ≠ [] :=
  ⟨_, witness_InvariantKeptByStep.1, by simp⟩

end Sys2Proof.Tests
end

/-! ## What PARSE leaves -/

namespace Sys2Proof.Machine

/-! ### PARSE is a function of FB, LEN and OVF -/

/-- The dispatcher's choice, an error or a commit, is fixed by the MHdr byte and MacPayload (R125, R130). -/
theorem dispatch_determined (mac : List Byte) (mhdr : Byte) :
    (∃ e, ∀ s : State, s.mac = mac → s.dispatch mhdr = s.raise e) ∨
    (∃ v f, ∀ s : State, s.mac = mac → s.dispatch mhdr = s.commit mhdr v f) := by
  have hdata : ∀ v d,
      (∃ e, ∀ s : State, s.mac = mac → s.dataBranch mhdr v d = s.raise e) ∨
      (∃ v' f, ∀ s : State, s.mac = mac → s.dataBranch mhdr v d = s.commit mhdr v' f) := by
    intro v d
    cases hd : dataDecode mac d with
    | error e => exact .inl ⟨e, fun s hs => by rw [State.dataBranch, hs, hd]⟩
    | ok f => exact .inr ⟨v, _, fun s hs => by rw [State.dataBranch, hs, hd]⟩
  unfold State.dispatch
  split
  · cases hd : joinreqDecode mac with
    | error e => exact .inl ⟨e, fun s hs => by rw [State.joinRequestBranch, hs, hd]⟩
    | ok f => exact .inr ⟨.joinRequest, _, fun s hs => by rw [State.joinRequestBranch, hs, hd]⟩
  · cases hd : joinaccDecode mac with
    | error e => exact .inl ⟨e, fun s hs => by rw [State.joinAcceptBranch, hs, hd]⟩
    | ok f => exact .inr ⟨.joinAccept, _, fun s hs => by rw [State.joinAcceptBranch, hs, hd]⟩
  · exact hdata _ _
  · exact hdata _ _
  · exact hdata _ _
  · exact hdata _ _
  · exact .inl ⟨_, fun _ _ => rfl⟩
  · exact .inl ⟨_, fun _ _ => rfl⟩

/-- What PARSE makes of the frame depends on FB, LEN and OVF only (R52, R136). -/
theorem parse_sameParse {s t : State} (hfb : t.fb = s.fb) (hlen : t.len = s.len) (hovf : t.ovf = s.ovf) :
    SameParse s.parse t.parse := by
  have hmac : t.mac = s.mac := by rw [State.mac, State.mac, hfb, hlen]
  have htrailer : t.trailer = s.trailer := by rw [State.trailer, State.trailer, hfb, hlen]
  unfold State.parse
  simp only [hfb, hlen, hovf]
  split
  · exact ⟨rfl, rfl⟩
  · split
    · exact ⟨rfl, rfl⟩
    · rcases dispatch_determined s.mac (s.fb.read 0) with ⟨e, h⟩ | ⟨v, f, h⟩
      · rw [h s.invalidate rfl, h t.invalidate hmac]
        exact ⟨rfl, rfl⟩
      · rw [h s.invalidate rfl, h t.invalidate hmac]
        simp [SameParse, hlen, trailer_invalidate, htrailer]

/-! ### What PARSE leaves in ERR and in the registers it does not use -/

/-- The pairs of ERR and ERRSUB a PARSE leaves (R209, R213). -/
theorem parse_error_cases (s : State) :
    (s.parse.err = .noError ∧ s.parse.errsub.toNat = 0) ∨
    (s.parse.err = .overflow ∧ s.parse.errsub.toNat = 0) ∨
    (s.parse.err = .truncatedFrame ∧ 1 ≤ s.parse.errsub.toNat ∧ s.parse.errsub.toNat ≤ 5) ∨
    (s.parse.err = .unsupportedType ∧ (s.parse.errsub.toNat = 6 ∨ s.parse.errsub.toNat = 7)) := by
  have hlt := wireType_lt s
  rcases parse_outcomes s with ⟨-, hp⟩ | ⟨-, -, hp⟩ | ⟨-, -, h6, hp⟩ | ⟨-, -, -, -, hp⟩ | ⟨-, -, -, -, -, hp⟩ |
    ⟨-, -, -, -, -, hp⟩ | ⟨-, -, -, -, -, hp⟩ | ⟨-, -, -, hp⟩ | ⟨-, -, -, hp⟩ |
    ⟨-, -, -, -, v, d, f, -, -, -, -, -, -, hp⟩
  case inr.inr.inl =>
    obtain h | h : s.wireType = 6 ∨ s.wireType = 7 := by omega
    · simp [hp, h]
    · simp [hp, h]
  all_goals simp [hp]

/-- R207 after a PARSE. -/
theorem parse_errorLegal (s : State) : ErrorLegal s.parse.err s.parse.errsub.toNat := by
  rcases parse_error_cases s with ⟨he, h⟩ | ⟨he, h⟩ | ⟨he, h⟩ | ⟨he, h⟩
  · rw [he]; exact h
  · rw [he]; exact h
  · rw [he]; exact h
  · rw [he]; exact h

/-- A PARSE that leaves no variant leaves every parse-result register at its reset value (R133). -/
theorem parse_results_of_noVariant (s : State) (hv : s.parse.variant = .noVariant) :
    s.parse.results = Results.reset := by
  rcases parse_cases s with ⟨-, h⟩ | ⟨-, -, h⟩ | ⟨-, -, h⟩
  · rw [h]; rfl
  · rw [h]; rfl
  · rw [h] at hv ⊢
    rcases dispatch_cases s.invalidate (s.fb.read 0) with ⟨e, -, -, h⟩ | ⟨v, f, hne, h⟩
    · rw [h]; rfl
    · rw [h] at hv
      exact absurd hv hne

/-! ### The fields of a parsed frame put together give the frame back -/

/-- A frame that PARSE accepts has at least 12 bytes (R135). -/
theorem twelve_le_len_of_parse_held (s : State) (hv : s.parse.variant ≠ .noVariant) : 12 ≤ s.len.toNat := by
  rcases parse_held_cases s hv with ⟨-, h, -⟩ | ⟨-, h, -⟩ | ⟨-, -, h, -⟩ <;> omega

/-- The stored MIC is the last four bytes of the frame (R128). -/
theorem parse_mic (s : State) (hv : s.parse.variant ≠ .noVariant) :
    s.parse.results.mic.toList = s.fb.slice (s.len.toNat - 4) 4 := by
  have hfit : (fit 4 s.trailer).toList = s.trailer := toList_fit_of_length (by simp [State.trailer])
  rcases parse_held_cases s hv with ⟨-, -, hp⟩ | ⟨-, -, hp⟩ | ⟨-, -, -, v, d, f, -, -, -, -, -, -, hp⟩ <;>
    rw [hp] <;> exact hfit

/-- R161 gives back the 19 bytes of a join-request before its MIC. -/
theorem joinRequestMsg_parse (s : State) (hlen : s.len.toNat = 23)
    (hp : s.parse = s.invalidate.commit (s.fb.read 0) .joinRequest
      (fun r => r.withJoinRequest {
        appeui := BitVec.ofNat 64 (le (s.fb.slice 1 8))
        deveui := BitVec.ofNat 64 (le (s.fb.slice 9 8))
        devnonce := fit 2 (s.fb.slice 17 2) })) :
    s.parse.fieldMsg = s.fb.slice 0 (s.len.toNat - 4) := by
  rw [hp, hlen, State.fieldMsg]
  simp only [State.commit_variant, State.joinRequestMsg, State.commit_results, Results.withJoinRequest_mhdr,
    Results.withJoinRequest_appeui, Results.withJoinRequest_deveui, Results.withJoinRequest_devnonce]
  rw [lebytes_register (Memory.length_slice ..) rfl, lebytes_register (Memory.length_slice ..) rfl,
    toList_fit_of_length (Memory.length_slice ..), show 23 - 4 = 1 + 8 + 8 + 2 from rfl,
    Memory.slice_add, Memory.slice_add, Memory.slice_add]
  rfl

/-- R162 gives back the bytes of a join-accept before its MIC, with and without CFList. -/
theorem joinAcceptMsg_parse (s : State) (hlen : s.len.toNat = 17 ∨ s.len.toNat = 33)
    (hp : s.parse = s.invalidate.commit (s.fb.read 0) .joinAccept
      (fun r => r.withJoinAccept {
        appnonce := fit 3 (s.fb.slice 1 3)
        netid := fit 3 (s.fb.slice 4 3)
        devaddr := BitVec.ofNat 32 (le (s.fb.slice 7 4))
        dlsettings := s.fb.read 11
        rxdelay := s.fb.read 12
        cflistp := decide (s.len.toNat = 33)
        cflist := if s.len.toNat = 33 then fit 16 (s.fb.slice 13 16) else Vector.replicate 16 0 })) :
    s.parse.fieldMsg = s.fb.slice 0 (s.len.toNat - 4) := by
  have hbase : s.fb.slice 0 13 = [s.fb.read 0] ++ s.fb.slice 1 3 ++ s.fb.slice 4 3 ++ s.fb.slice 7 4 ++
      [s.fb.read 11, s.fb.read 12] := by
    rw [show 13 = 1 + 3 + 3 + 4 + 2 from rfl, Memory.slice_add, Memory.slice_add, Memory.slice_add, Memory.slice_add]
    rfl
  rw [hp, State.fieldMsg]
  simp only [State.commit_variant, State.joinAcceptMsg, State.commit_results, Results.withJoinAccept_mhdr,
    Results.withJoinAccept_appnonce, Results.withJoinAccept_netid, Results.withJoinAccept_devaddr,
    Results.withJoinAccept_dlsettings, Results.withJoinAccept_rxdelay, Results.withJoinAccept_cflistp,
    Results.withJoinAccept_cflist]
  rw [lebytes_register (Memory.length_slice ..) rfl, toList_fit_of_length (Memory.length_slice ..),
    toList_fit_of_length (Memory.length_slice ..), ← hbase]
  rcases hlen with h | h
  · simp [h]
  · rw [h, show 33 - 4 = 13 + 16 from rfl, Memory.slice_add]
    simp [toList_fit_of_length]

/-- A slice split at one byte. -/
theorem Memory.slice_split_at (m : Memory) (a n k : Nat) :
    m.slice a (n + (k + 1)) = m.slice a n ++ m.read (a + n) :: m.slice (a + n + 1) k :=
  Memory.slice_add m a n (k + 1)

/-- R120 on the fields read from a frame gives back the header's bytes. -/
theorem fhdrEncode_slice (m : Memory) {n : Nat} (hn : n ≤ 15) :
    fhdrEncode (BitVec.ofNat 32 (le (m.slice 1 4))) (m.read 5) (BitVec.ofNat 16 (le (m.slice 6 2)))
      ((fit 15 (m.slice 8 n)).toList.take n) = m.slice 1 (7 + n) := by
  have hopts : (fit 15 (m.slice 8 n)).toList.take n = m.slice 8 n := by
    have h := take_toList_fit (n := 15) (bs := m.slice 8 n) (by simpa using hn)
    rwa [Memory.length_slice] at h
  rw [fhdrEncode, hopts, lebytes_register (Memory.length_slice ..) rfl, lebytes_register (Memory.length_slice ..) rfl,
    show 7 = 4 + 1 + 2 from rfl, Memory.slice_add, Memory.slice_add, Memory.slice_add]
  rfl

/-- R163 gives back the bytes of a data message before its MIC: no FPort, FPort alone, or FPort and a payload. -/
theorem dataMsg_parse (s : State) (hfits : 12 + s.wireFOptsLen ≤ s.len.toNat) {v : Variant} {d : Direction}
    {f : DataFields} (hf : dataDecode s.mac d = .ok f)
    (hp : s.parse = s.invalidate.commit (s.fb.read 0) v (fun r => r.withData f)) :
    s.parse.dataMsg = s.fb.slice 0 (s.len.toNat - 4) := by
  have hw := wireFOptsLen_lt s
  have hfb : s.parse.fb = s.fb := by rw [hp]; rfl
  have hmhdr : s.parse.results.mhdr = s.fb.read 0 := by rw [hp]; rfl
  have hres := withData_fits s hfits d f hf { s.invalidate.results with
    mhdr := s.fb.read 0, mtype := mtypeOf (s.fb.read 0), maclen := BitVec.ofNat 9 (s.invalidate.len.toNat - 5)
    mic := fit 4 s.invalidate.trailer }
  rw [← State.commit_results s.invalidate (s.fb.read 0) v (fun r => r.withData f), ← hp] at hres
  obtain ⟨-, -, haddr, hctrl, hoptslen, hcnt, hopts, -, hshort, hlong⟩ := hres
  rw [State.dataMsg, State.frmPayload, hfb, hmhdr, haddr, hctrl, hcnt, hopts, hoptslen, fhdrEncode_slice _ (by omega)]
  by_cases hport : s.len.toNat = 12 + s.wireFOptsLen
  · obtain ⟨hportp, -, hfrmlen, -⟩ := hshort hport
    rw [hportp, hfrmlen, show s.len.toNat - 4 = (7 + s.wireFOptsLen) + 1 by omega, Memory.slice]
    simp [Memory.slice]
  · obtain ⟨hportp, hfport, hfrmlen, hfrmoff⟩ := hlong (by omega)
    have hpayload : s.fb.slice s.parse.results.frmoff.toNat s.parse.results.frmlen.toNat =
        s.fb.slice (9 + s.wireFOptsLen) (s.len.toNat - 13 - s.wireFOptsLen) := by
      rw [hfrmlen, hfrmoff]
      split
      · rw [show s.len.toNat - 13 - s.wireFOptsLen = 0 by omega]; rfl
      · rfl
    have hsplit : s.len.toNat - 4 = (7 + s.wireFOptsLen) + ((s.len.toNat - 13 - s.wireFOptsLen) + 1) + 1 := by omega
    rw [hpayload, hportp, hfport, hsplit, Memory.slice, Memory.slice_split_at,
      show 0 + 1 + (7 + s.wireFOptsLen) = 8 + s.wireFOptsLen by omega,
      show 8 + s.wireFOptsLen + 1 = 9 + s.wireFOptsLen by omega]
    simp

/-- R176: after a PARSE that leaves a variant, the field form of the message is the buffer form. -/
theorem fieldMsg_parse (s : State) (hv : s.parse.variant ≠ .noVariant) :
    s.parse.fieldMsg = s.fb.slice 0 (s.len.toNat - 4) := by
  rcases parse_held_cases s hv with ⟨-, hlen, hp⟩ | ⟨-, hlen, hp⟩ |
    ⟨-, -, hfits, v, d, f, -, hn, hn1, hn2, -, hf, hp⟩
  · exact joinRequestMsg_parse s hlen hp
  · exact joinAcceptMsg_parse s hlen hp
  · have hvar : s.parse.variant = v := by rw [hp]; rfl
    rw [fieldMsg_data _ (hvar ▸ hn) (hvar ▸ hn1) (hvar ▸ hn2)]
    exact dataMsg_parse s hfits hf hp

/-- R197: after a PARSE that leaves a variant, SER() is the frame. -/
theorem ser_parse (s : State) (hv : s.parse.variant ≠ .noVariant) : s.parse.ser = s.fb.slice 0 s.len.toNat := by
  have h12 := twelve_le_len_of_parse_held s hv
  have hsplit : s.len.toNat = (s.len.toNat - 4) + 4 := by omega
  rw [State.ser, fieldMsg_parse s hv, parse_mic s hv]
  conv_rhs => rw [hsplit, Memory.slice_add, Nat.zero_add]

end Sys2Proof.Machine

/-! ## The invariant -/

namespace Sys2Proof.Machine

section
variable {s t : State}

/-- R22: an idle block has no request outstanding. -/
theorem Inv.pend_eq_none (h : Inv s) (hb : s.busy = false) : s.pend = none := by
  have hp := h.busyIffPending
  rw [hb] at hp
  exact Option.isNone_iff_eq_none.mp (by simpa using hp.symm)

/-- The held results stay what PARSE makes of the frame while neither they nor FB, LEN and OVF change. -/
theorem Inv.heldIsParsed_of_same (h : Inv s) (hfb : t.fb = s.fb) (hlen : t.len = s.len) (hovf : t.ovf = s.ovf)
    (hsame : SameParse s t) (hv : t.variant ≠ .noVariant) :
    t.parse.variant = t.variant ∧ t.parse.results = t.results := by
  obtain ⟨hvariant, hresults⟩ := hsame
  obtain ⟨hpv, hpr⟩ := parse_sameParse hfb hlen hovf
  obtain ⟨hsv, hsr⟩ := h.heldIsParsed (hvariant ▸ hv)
  exact ⟨by rw [hpv, hsv, hvariant], by rw [hpr, hsr, hresults]⟩

/-! ### Each shared operation keeps it -/

/-- The model's own fields are in no clause. -/
theorem Inv.withModelFields (h : Inv s) (moves : List Move) (draws : Nat) (rdData : BitVec 64) :
    Inv { s with moves := moves, draws := draws, rdData := rdData } :=
  { h with heldIsParsed := h.heldIsParsed_of_same rfl rfl rfl ⟨rfl, rfl⟩ }

theorem Inv.raise (h : Inv s) {e : Raise} (he : ErrorLegal e.kind e.sub.toNat) : Inv (s.raise e) :=
  { h with
    heldIsParsed := h.heldIsParsed_of_same rfl rfl rfl ⟨rfl, rfl⟩
    errorLegal := he }

theorem Inv.clearMic (h : Inv s) : Inv s.clearMic :=
  { h with
    heldIsParsed := h.heldIsParsed_of_same rfl rfl rfl ⟨rfl, rfl⟩
    busyNoResult := fun _ => rfl
    noResultCleared := fun _ => ⟨rfl, rfl⟩
    resultHeld := nofun
    micOkEqual := nofun }

theorem Inv.request (h : Inv s) (hv : s.variant ≠ .noVariant) (hdone : s.micdone = false) (kind : MicKind)
    {key : List Byte} (hkey : key.length = 16) : Inv (s.request kind key) :=
  { h with
    heldIsParsed := h.heldIsParsed_of_same rfl rfl rfl ⟨rfl, rfl⟩
    busyIffPending := rfl
    pendingRequest := fun p hp => by
      obtain rfl := Option.some.inj hp
      exact ⟨hv, hkey, rfl⟩
    busyNoResult := fun _ => hdone }

/-- MICOK is set by the comparison with the stored MIC only (R171). -/
theorem Inv.completeMic (h : Inv s) (hv : s.variant ≠ .noVariant) (kind : MicKind) (tag : List Byte) :
    Inv (s.completeMic kind tag) :=
  { h with
    heldIsParsed := h.heldIsParsed_of_same rfl rfl rfl ⟨rfl, rfl⟩
    busyIffPending := rfl
    pendingRequest := nofun
    busyNoResult := nofun
    noResultCleared := nofun
    resultHeld := fun _ => hv
    micOkEqual := fun hok => by
      cases kind
      · cases hok
      · exact of_decide_eq_true hok }

theorem Inv.invalidate (h : Inv s) (hb : s.busy = false) : Inv s.invalidate :=
  { h with
    heldIsParsed := fun hv => absurd rfl hv
    noneIsReset := fun _ => rfl
    outputIsFrame := .inl rfl
    errorLegal := rfl
    pendingRequest := fun p hp => by simp [h.pend_eq_none hb] at hp
    busyNoResult := fun _ => rfl
    noResultCleared := fun _ => ⟨rfl, rfl⟩
    resultHeld := nofun
    micOkEqual := nofun }

/-- Reset needs a legal PHY_MAX only, since every other clause is about what it sets (R235). -/
theorem inv_applyReset (hconfig : s.config.ok = true) : Inv s.applyReset where
  capacity := hconfig
  lenBound := Nat.zero_le _
  overflowFull := nofun
  frameForm := rfl
  frameInside := nofun
  outputForm := rfl
  outputInside := nofun
  heldIsParsed := fun hv => absurd rfl hv
  noneIsReset := fun _ => rfl
  outputIsFrame := .inl rfl
  errorLegal := rfl
  busyIffPending := rfl
  pendingRequest := nofun
  busyNoResult := fun _ => rfl
  noResultCleared := fun _ => ⟨rfl, rfl⟩
  resultHeld := nofun
  micOkEqual := nofun

/-! ### Each command of the host keeps it, on an idle block -/

theorem Inv.clear (h : Inv s) (hb : s.busy = false) : Inv { s.invalidate with len := 0, ovf := false } :=
  { h.invalidate hb with
    lenBound := Nat.zero_le _
    overflowFull := nofun
    heldIsParsed := fun hv => absurd rfl hv
    outputIsFrame := .inl rfl
    pendingRequest := fun p hp => by simp [h.pend_eq_none hb] at hp }

/-- A PUSH with room fills the next free index, below PHY_MAX (R11, R93). -/
theorem Inv.push (h : Inv s) (hb : s.busy = false) (b : Byte) (hroom : s.len.toNat < s.config.phyMax) :
    Inv { s.invalidate with fb := s.fb.write s.len.toNat b, len := BitVec.ofNat 9 (s.len.toNat + 1) } := by
  have hmax : s.config.phyMax ≤ 259 := by
    have hok := h.capacity
    simp only [Config.ok, Bool.and_eq_true, decide_eq_true_eq] at hok
    exact hok.2
  have hlen : (BitVec.ofNat 9 (s.len.toNat + 1)).toNat = s.len.toNat + 1 := by simp; omega
  exact { h.invalidate hb with
    lenBound := by rw [hlen]; exact hroom
    overflowFull := fun ho => absurd (h.overflowFull ho) (Nat.ne_of_lt hroom)
    frameForm := Memory.wf_write _ _ h.frameForm
    frameInside := fun c hc => by
      rcases Memory.mem_write hc with hc | hc
      · rw [hc]; exact hroom
      · exact h.frameInside c hc
    heldIsParsed := fun hv => absurd rfl hv
    outputIsFrame := .inl rfl
    pendingRequest := fun p hp => by simp [h.pend_eq_none hb] at hp }

/-- A PUSH that sets OVF finds the buffer full (R11, R93). -/
theorem Inv.pushFull (h : Inv s) (hb : s.busy = false) (hfull : s.config.phyMax ≤ s.len.toNat) :
    Inv { s.invalidate with ovf := true } :=
  { h.invalidate hb with
    overflowFull := fun _ => Nat.le_antisymm h.lenBound hfull
    heldIsParsed := fun hv => absurd rfl hv
    pendingRequest := fun p hp => by simp [h.pend_eq_none hb] at hp }

theorem Inv.parse (h : Inv s) (hb : s.busy = false) : Inv s.parse := by
  rw [parse_frame s]
  exact { h.invalidate hb with
    heldIsParsed := fun _ => parse_sameParse rfl rfl rfl
    noneIsReset := parse_results_of_noVariant s
    outputIsFrame := .inl rfl
    errorLegal := parse_errorLegal s
    pendingRequest := fun p hp => by simp [h.pend_eq_none hb] at hp
    resultHeld := nofun
    micOkEqual := nofun }

theorem Inv.calcmic (h : Inv s) (d : Byte) (key : Key) (ht : execCalcmic d key.toList s = .next t) : Inv t := by
  rcases execCalcmic_cases d key.toList s t ht with ⟨-, rfl⟩ | ⟨hv, rfl⟩
  · exact h.clearMic.raise rfl
  · exact (h.clearMic.raise (e := ⟨.noError, 0⟩) rfl).request hv rfl .calc (by simp)

theorem Inv.verify (h : Inv s) (d : Byte) (key : Key) (ht : execVerify d key.toList s = .next t) : Inv t := by
  rcases execVerify_cases d key.toList s t ht with ⟨-, rfl⟩ | ⟨hv, rfl⟩
  · exact h.clearMic
  · exact h.clearMic.request hv rfl .verify (by simp)

/-- R197 for a held variant: SER() is the frame in FB. -/
theorem Inv.ser_eq_frame (h : Inv s) (hv : s.variant ≠ .noVariant) : s.ser = s.fb.slice 0 s.len.toNat := by
  obtain ⟨hpv, hpr⟩ := h.heldIsParsed hv
  rw [← ser_parse s (hpv ▸ hv), parse_frame s, hpv, hpr]
  rfl

theorem Inv.serialize (h : Inv s) (d : Byte) (ht : execSerialize d s = .next t) : Inv t := by
  rcases execSerialize_cases d s t ht with ⟨-, rfl⟩ | ⟨hv, rfl⟩
  · exact { h with
      heldIsParsed := h.heldIsParsed_of_same rfl rfl rfl ⟨rfl, rfl⟩
      outputIsFrame := .inl rfl }
  · rw [h.ser_eq_frame hv, Memory.length_slice]
    exact { h with
      outputForm := Memory.wf_writeBytes 0 _ h.outputForm
      outputInside := fun c hc => by
        rcases Memory.mem_writeBytes _ hc with ⟨-, hc⟩ | hc
        · rw [Memory.length_slice, Nat.zero_add] at hc
          exact Nat.lt_of_lt_of_le hc h.lenBound
        · exact h.outputInside c hc
      heldIsParsed := h.heldIsParsed_of_same rfl rfl rfl ⟨rfl, rfl⟩
      outputIsFrame := .inr ⟨hv, by simp, fun i hi => by
        have hw := Memory.read_writeBytes_same (a := 0) (s.fb.slice 0 s.len.toNat) i (by simpa using hi) h.outputForm
        rw [Memory.getElem_slice, Nat.zero_add] at hw
        exact hw⟩ }

/-- Every command the block accepts keeps the invariant (R90). -/
theorem Inv.command (h : Inv s) (hb : s.busy = false) (cw : CmdWord) (key : Key)
    (ht : exec (decodeCommand cw key) s = .next t) : Inv t := by
  rcases command_cases cw key s t ht with ⟨-, rfl⟩ | ⟨-, ht⟩ | ⟨-, ht⟩ | ⟨-, rfl⟩ | ⟨-, ht⟩ | ⟨-, ht⟩ | ⟨-, ht⟩ |
    ⟨hop, rfl⟩
  · exact h
  · rw [execClear_eq _ s t ht]
    exact h.clear hb
  · rcases execPush_cases _ s t ht with ⟨hroom, rfl⟩ | ⟨hfull, rfl⟩
    · exact h.push hb _ hroom
    · exact h.pushFull hb hfull
  · exact h.parse hb
  · exact h.calcmic _ key ht
  · exact h.verify _ key ht
  · exact h.serialize _ ht
  · exact h.raise ⟨hop, Nat.le_of_lt_succ (cw.extractLsb' 8 4).isLt⟩

/-! ### Each move keeps it -/

theorem Inv.respond (h : Inv s) (ht : respond s = .next t) : Inv t := by
  rcases respond_cases s with ⟨-, hr⟩ | ⟨p, -, hp, hr⟩ | ⟨-, -, hr⟩
  · rw [hr] at ht
    exact Host.Outcome.next.inj ht ▸ h
  · rw [hr] at ht
    obtain ⟨hv, -, -⟩ := h.pendingRequest p hp
    exact Host.Outcome.next.inj ht ▸ h.completeMic hv _ _
  · rw [hr] at ht
    cases ht

theorem Inv.readPort (h : Inv s) (no : BitVec 6) (idx : Nat) : Inv (s.readPort no idx) := by
  obtain ⟨v, n, hr⟩ := readPort_frame s no idx
  rw [hr]
  exact h.withModelFields s.moves n v

theorem Inv.step (h : Inv s) (ht : step s = .next t) : Inv t := by
  have hrest : ∀ rest, Inv { s with moves := rest } := fun rest => h.withModelFields rest s.draws s.rdData
  rcases step_cases s with ⟨-, hs⟩ | ⟨cw, key, rest, -, -, hs⟩ | ⟨cw, key, rest, -, hb, hs⟩ | ⟨rest, -, hs⟩ |
    ⟨no, idx, rest, -, hs⟩ | ⟨rest, -, hs⟩
  · exact h.respond (hs ▸ ht)
  · exact h.respond (hs ▸ ht)
  · exact (hrest rest).command hb cw key (hs ▸ ht)
  · exact (hrest rest).respond (hs ▸ ht)
  · exact Host.Outcome.next.inj (hs ▸ ht) ▸ (hrest rest).readPort no idx
  · exact Host.Outcome.next.inj (hs ▸ ht) ▸ inv_applyReset h.capacity

end

/-- Settles O56: each move is a shared operation or a command, and each of those keeps every clause. -/
theorem invariantKeptByStep : Obligations.InvariantKeptByStep :=
  fun _ _ h ht => h.step ht

/-- Settles O55: the reset state is its own reset, and the default of PHY_MAX is legal (R4). -/
theorem invariantAtReset : Obligations.InvariantAtReset := by
  change Inv State.reset.applyReset
  exact inv_applyReset rfl

end Sys2Proof.Machine

/-! ## The parse results, ERR and the read port -/

namespace Sys2Proof.Machine

/-! ### The parse results -/

/-- Settles O23: a commit writes its variant's registers over the reset values that INVALIDATE() set. -/
theorem unusedRegistersReadReset : Obligations.UnusedRegistersReadReset := by
  intro d s t ht
  obtain rfl : s.parse = t := Host.Outcome.next.inj ht
  by_cases hv : s.parse.variant = .noVariant
  · simp [hv, parse_results_of_noVariant s hv]
  · rcases parse_held_cases s hv with ⟨-, -, hp⟩ | ⟨-, -, hp⟩ | ⟨-, -, -, v, d', f, -, hn, hn1, hn2, -, -, hp⟩
    · simp [hp]
    · simp [hp]
    · simp [hp, hn, hn1, hn2]

/-- The engine's move writes no parse result and nothing of the frame (R168, R171). -/
theorem respond_sameParse {s t : State} (ht : respond s = .next t) : SameParse s t ∧ SameFrameStore s t := by
  rcases respond_cases s with ⟨-, hr⟩ | ⟨p, -, -, hr⟩ | ⟨-, -, hr⟩
  · rw [hr] at ht
    obtain rfl := Host.Outcome.next.inj ht
    exact ⟨⟨rfl, rfl⟩, fun _ => rfl, rfl, rfl⟩
  · rw [hr] at ht
    obtain rfl := Host.Outcome.next.inj ht
    exact ⟨⟨rfl, rfl⟩, fun _ => rfl, rfl, rfl⟩
  · rw [hr] at ht
    cases ht

/-- A command other than CLEAR, PUSH and PARSE writes no parse result and nothing of the frame (R27). -/
theorem command_sameParse {cw : CmdWord} {key : Key} {s t : State} (hclear : cw.extractLsb' 8 4 ≠ 0x1)
    (hpush : cw.extractLsb' 8 4 ≠ 0x2) (hparse : cw.extractLsb' 8 4 ≠ 0x3)
    (ht : exec (decodeCommand cw key) s = .next t) : SameParse s t ∧ SameFrameStore s t := by
  rcases command_cases cw key s t ht with ⟨-, rfl⟩ | ⟨hop, -⟩ | ⟨hop, -⟩ | ⟨hop, -⟩ | ⟨-, ht⟩ | ⟨-, ht⟩ | ⟨-, ht⟩ |
    ⟨-, rfl⟩
  · exact ⟨⟨rfl, rfl⟩, fun _ => rfl, rfl, rfl⟩
  · exact absurd hop hclear
  · exact absurd hop hpush
  · exact absurd hop hparse
  · rcases execCalcmic_cases _ _ s t ht with ⟨-, rfl⟩ | ⟨-, rfl⟩ <;> exact ⟨⟨rfl, rfl⟩, fun _ => rfl, rfl, rfl⟩
  · rcases execVerify_cases _ _ s t ht with ⟨-, rfl⟩ | ⟨-, rfl⟩ <;> exact ⟨⟨rfl, rfl⟩, fun _ => rfl, rfl, rfl⟩
  · rcases execSerialize_cases _ s t ht with ⟨-, rfl⟩ | ⟨-, rfl⟩ <;> exact ⟨⟨rfl, rfl⟩, fun _ => rfl, rfl, rfl⟩
  · exact ⟨⟨rfl, rfl⟩, fun _ => rfl, rfl, rfl⟩

/-- Settles O48: the commands by their codes, then the response and the read as the two moves named. -/
theorem parseResultsAreImmutable : Obligations.ParseResultsAreImmutable := by
  refine ⟨fun cw key s t hclear hpush hparse ht => command_sameParse hclear hpush hparse ht, ?_⟩
  intro s t m rest hm hmove ht
  rcases hmove with rfl | ⟨no, idx, rfl⟩
  · rw [step, hm] at ht
    exact respond_sameParse (s := { s with moves := rest }) ht
  · rw [step, hm] at ht
    obtain ⟨v, n, hr⟩ := readPort_frame { s with moves := rest } no idx
    obtain rfl := Host.Outcome.next.inj ht
    simp only [hr]
    exact ⟨⟨rfl, rfl⟩, fun _ => rfl, rfl, rfl⟩

/-! ### ERR -/

/-- Settles O49: one case for each command code. -/
theorem whoWritesErr : Obligations.WhoWritesErr := by
  intro cw key s t ht
  rcases command_cases cw key s t ht with ⟨hop, rfl⟩ | ⟨hop, ht⟩ | ⟨hop, ht⟩ | ⟨hop, rfl⟩ | ⟨hop, ht⟩ | ⟨hop, ht⟩ |
    ⟨hop, ht⟩ | ⟨hop, rfl⟩
  · simp [hop, SameError]
  · simp [hop, execClear_eq _ s t ht]
  · rcases execPush_cases _ s t ht with ⟨-, rfl⟩ | ⟨-, rfl⟩ <;> simp [hop]
  · have herr : s.parse.err = .noError ∨ s.parse.err = .overflow ∨ s.parse.err = .truncatedFrame ∨
        s.parse.err = .unsupportedType := by
      rcases parse_error_cases s with ⟨he, -⟩ | ⟨he, -⟩ | ⟨he, -⟩ | ⟨he, -⟩ <;> simp [he]
    simp [hop, herr]
  · rcases execCalcmic_cases _ _ s t ht with ⟨-, rfl⟩ | ⟨-, rfl⟩ <;> simp [hop]
  · rcases execVerify_cases _ _ s t ht with ⟨-, rfl⟩ | ⟨-, rfl⟩ <;> simp [hop, SameError]
  · rcases execSerialize_cases _ s t ht with ⟨-, rfl⟩ | ⟨-, rfl⟩ <;> simp [hop, SameError]
  · have hne : ∀ op : BitVec 4, op.toNat < 7 → cw.extractLsb' 8 4 ≠ op := by
      rintro op hlt rfl
      exact absurd hop (Nat.not_le.mpr hlt)
    simp [hne, State.badCommand]

/-! ### The read port -/

/-- Settles O1: each register of R26 at its reset value. -/
theorem resetValues : Obligations.ResetValues := by
  unfold Obligations.ResetValues
  decide

/-- A scalar register reads as its value in the port's 64 bits. -/
theorem PortValue.scalar_toNat {w : Nat} (x : BitVec w) : PortValue.scalar x.toNat = .value (x.setWidth 64) := by
  rw [PortValue.scalar, BitVec.ofNat_toNat]

/-- An array register reads 0 beyond its size (R24). -/
theorem PortValue.element_of_size_le {n idx : Nat} (v : Vector Byte n) (h : n ≤ idx) :
    PortValue.element v.toList idx = .value 0 := by
  rw [PortValue.element, List.getD_eq_default _ _ (by simpa using h)]
  rfl

theorem PortValue.buffer_of_lt (m : Memory) {valid idx : Nat} (h : idx < valid) :
    PortValue.buffer m valid idx = .value ((m.read idx).setWidth 64) := by
  rw [PortValue.buffer, if_pos h, PortValue.scalar_toNat]

theorem PortValue.buffer_of_le (m : Memory) {valid idx : Nat} (h : valid ≤ idx) :
    PortValue.buffer m valid idx = .unspecified := if_neg (Nat.not_lt.mpr h)

/-- Numbers 0x21 to 0x3F are unassigned and read 0 (R24). -/
theorem port_unassigned (s : State) {no : BitVec 6} (idx : Nat) (h : 0x21 ≤ no.toNat) : s.port no idx = .value 0 := by
  obtain ⟨k, hk⟩ := Nat.exists_eq_add_of_le' h
  rw [State.port, hk]
  rfl

/-- Settles O42: FB and OB below and above their valid length, the arrays beyond their size, the unassigned numbers. -/
theorem portReads : Obligations.PortReads := by
  intro s idx
  refine ⟨?_, ?_, ?_, ?_, ?_, ?_, ?_, ?_, ?_, ?_⟩
  · exact PortValue.buffer_of_lt s.fb
  · exact PortValue.buffer_of_le s.fb
  · exact PortValue.buffer_of_lt s.ob
  · exact PortValue.buffer_of_le s.ob
  · exact fun h => ⟨PortValue.element_of_size_le _ h, PortValue.element_of_size_le _ h⟩
  · exact PortValue.element_of_size_le _
  · exact PortValue.element_of_size_le _
  · exact fun h => ⟨PortValue.element_of_size_le _ h, PortValue.element_of_size_le _ h⟩
  · exact PortValue.element_of_size_le _
  · exact fun no => port_unassigned s idx

/-- Settles O43: a read is taken at once, whatever BUSY is. -/
theorem readsHaveNoSideEffect : Obligations.ReadsHaveNoSideEffect := by
  intro s no idx rest hm
  have hport : State.port { s with moves := rest } no idx = s.port no idx := rfl
  have hstep : step s = .next (State.readPort { s with moves := rest } no idx) := by rw [step, hm]
  constructor
  · intro v hv
    rw [hstep, State.readPort, hport, hv]
  · intro hv
    rw [hstep, State.readPort, hport, hv]

/-- The bits of five flags packed from bit 0 up. -/
theorem flags_bits (a b c d e : Bool) :
    let x := flagAt 0 a ||| flagAt 1 b ||| flagAt 2 c ||| flagAt 3 d ||| flagAt 4 e
    x.getLsbD 0 = a ∧ x.getLsbD 1 = b ∧ x.getLsbD 2 = c ∧ x.getLsbD 3 = d ∧ x.getLsbD 4 = e ∧
      x.extractLsb' 5 3 = 0 := by
  revert a b c d e
  decide

/-- VARIANT is 7 exactly when none is held (R12). -/
theorem parsed_eq_tag_ne (s : State) : s.parsed = decide (s.variant.tag ≠ 7) := by
  unfold State.parsed
  cases s.variant <;> rfl

/-- The fields of ERRSUB and ERR packed into a byte (R19). -/
theorem errReg_fields (sub : BitVec 4) (code : BitVec 3) :
    let x := sub ++ (0#1 ++ code)
    x.extractLsb' 0 3 = code ∧ x.getLsbD 3 = false ∧ x.extractLsb' 4 4 = sub := by
  revert sub code
  decide

/-- Settles O41: the two packed registers field by field. -/
theorem statusAndErrorPacking : Obligations.StatusAndErrorPacking := by
  intro s idx
  rw [← parsed_eq_tag_ne]
  obtain ⟨hbusy, hparsed, hdone, hok, hovf, hhigh⟩ := flags_bits s.busy s.parsed s.micdone s.micok s.ovf
  exact ⟨PortValue.scalar_toNat s.status, PortValue.scalar_toNat s.errReg, hbusy, hparsed, hdone, hok, hovf, hhigh,
    errReg_fields s.errsub s.err.code⟩

end Sys2Proof.Machine

/-! ## Encoding and decoding -/

namespace Sys2Proof.Machine

/-! ### The formats of one byte -/

theorem decode_mhdr_cons (b : Byte) (rest : List Byte) : decode .mhdr (b :: rest) = .ok (decodeMhdr b, rest) := by
  cases rest <;> rfl

theorem decode_fctrlUp_cons (b : Byte) (rest : List Byte) :
    decode .fctrlUp (b :: rest) = .ok (decodeFctrl .uplink b, rest) := by
  cases rest <;> rfl

theorem decode_fctrlDown_cons (b : Byte) (rest : List Byte) :
    decode .fctrlDown (b :: rest) = .ok (decodeFctrl .downlink b, rest) := by
  cases rest <;> rfl

/-- What decodes in a format of one byte, by the decoder of that byte. -/
theorem decode_byte_inv {f : Format} {dec : Byte → Instr} {bytes rest : List Byte} {i : Instr}
    (hf : ∀ b rest, decode f (b :: rest) = .ok (dec b, rest)) (h : decode f bytes = .ok (i, rest)) :
    ∃ b, i = dec b ∧ bytes = [b] ++ rest := by
  cases bytes with
  | nil => cases f <;> cases h
  | cons b tail =>
    rw [hf] at h
    obtain ⟨rfl, rfl⟩ := Prod.mk.inj (Except.ok.inj h)
    exact ⟨b, rfl, rfl⟩

/-! ### The key operand -/

/-- CALCMIC and VERIFY are the commands that take a key (R71). -/
theorem takesKey_commandWord (op : BitVec 4) (d : Byte) :
    takesKey (commandWord op d) = (op.toNat == 4 || op.toNat == 5) := by
  rw [takesKey, commandWord_op]

/-- A key taken is the first 16 bytes, and the rest is what follows them. -/
theorem append_of_takeKey {bs rest : List Byte} {key : Key} (h : takeKey bs = some (key, rest)) :
    key.toList ++ rest = bs := by
  unfold takeKey at h
  split at h
  · obtain ⟨rfl, rfl⟩ := Prod.mk.inj (Option.some.inj h)
    exact List.take_append_drop 16 bs
  · cases h

/-! ### Decoding what was encoded -/

/-- The decoder on the carrier of a command without a key operand. -/
theorem decode_keyless {op : BitVec 4} {d : Byte} {i : Instr} (rest : List Byte)
    (hop : takesKey (commandWord op d) = false) (hi : decodeCommand (commandWord op d) zeroKey = i) :
    decode .cmd (commandBytes op d ++ rest) = .ok (i, rest) := by
  rw [decode_commandBytes, hop, hi]
  rfl

/-- The decoder on the carrier of a command with a key operand and the 16 bytes of the key. -/
theorem decode_keyed {op : BitVec 4} {d : Byte} {i : Instr} {key : List Byte} (rest : List Byte)
    (hop : takesKey (commandWord op d) = true) (hkey : keyOk key = true)
    (hi : ∀ k : Key, k.toList = key → decodeCommand (commandWord op d) k = i) :
    decode .cmd (commandBytes op d ++ key ++ rest) = .ok (i, rest) := by
  obtain ⟨k, htake, hk⟩ := takeKey_append key rest (of_decide_eq_true hkey)
  rw [List.append_assoc, decode_commandBytes, hop, if_pos rfl, htake, ← hi k hk]

/-- An MHdr byte put together is the row of its type code (R61, R62). -/
theorem decodeMhdr_mhdrByte (c : BitVec 3) (low : BitVec 5) :
    decodeMhdr (mhdrByte c low) = match c.toNat with
      | 0 => .joinRequest low
      | 1 => .joinAccept low
      | 2 => .unconfirmedDataUp low
      | 3 => .unconfirmedDataDown low
      | 4 => .confirmedDataUp low
      | 5 => .confirmedDataDown low
      | 6 => .unsupportedType6 low
      | _ => .unsupportedType7 low := by
  obtain ⟨hc, hlow⟩ := mhdrByte_fields c low
  rw [decodeMhdr, hc, hlow] <;> rfl

/-- An uplink frame-control byte put together is the row of its fields (R63). -/
theorem decodeFctrl_uplink (a q k r : Bool) (n : BitVec 4) :
    decodeFctrl .uplink (fctrlByte a q k r n) = .fctrlUp a q k r n := by
  obtain ⟨h7, h6, h5, h4, hn⟩ := fctrlByte_fields a q k r n
  rw [decodeFctrl, h7, h6, h5, h4, hn]

/-- A downlink frame-control byte put together is the row of its fields (R64). -/
theorem decodeFctrl_downlink (a r k p : Bool) (n : BitVec 4) :
    decodeFctrl .downlink (fctrlByte a r k p n) = .fctrlDown a r k p n := by
  obtain ⟨h7, h6, h5, h4, hn⟩ := fctrlByte_fields a r k p n
  rw [decodeFctrl, h7, h6, h5, h4, hn]

/-- Settles O51: a row is a command without a key, a command with one, an MHdr byte or an FCtrl byte. -/
theorem decodeInvertsEncode : Obligations.DecodeInvertsEncode := by
  intro i rest hwf
  cases i with
  | nop d | clear d | push d | parse d | serialize d | reserved7 d | reserved8 d | reserved9 d | reservedA d
  | reservedB d | reservedC d | reservedD d | reservedE d | reservedF d =>
    exact decode_keyless rest (takesKey_commandWord _ d) (decodeCommand_commandWord _ d zeroKey)
  | calcmic d key | verify d key =>
    refine decode_keyed rest (takesKey_commandWord _ d) hwf fun k hk => ?_
    rw [decodeCommand_commandWord, ← hk]
    rfl
  | joinRequest low | joinAccept low | unconfirmedDataUp low | unconfirmedDataDown low | confirmedDataUp low
  | confirmedDataDown low | unsupportedType6 low | unsupportedType7 low =>
    exact (decode_mhdr_cons _ rest).trans (by rw [decodeMhdr_mhdrByte]; rfl)
  | fctrlUp a q k r n => exact (decode_fctrlUp_cons _ rest).trans (by rw [decodeFctrl_uplink])
  | fctrlDown a r k p n => exact (decode_fctrlDown_cons _ rest).trans (by rw [decodeFctrl_downlink])

/-! ### Encoding what was decoded -/

/-- A carrier whose bits 15:12 are zero is that of its own fields (R71; log 9). -/
theorem commandBytes_split (lo hi : Byte) (h : hi.toNat < 16) : commandBytes (hi.extractLsb' 0 4) lo = [lo, hi] := by
  have hhi : ∀ b : Byte, b.toNat < 16 → (0#4 ++ b.extractLsb' 0 4 : BitVec 8) = b := by decide
  rw [commandBytes, hhi hi h]

/-- What the decoder reads in the format of commands: a carrier, followed by the key exactly if the code takes one. -/
theorem decode_cmd_cases {bytes rest : List Byte} {i : Instr} (h : decode .cmd bytes = .ok (i, rest)) :
    ∃ op d key, i = decodeCommand (commandWord op d) key ∧
      bytes = commandBytes op d ++ (if takesKey (commandWord op d) then key.toList else []) ++ rest := by
  match bytes with
  | [] | [_] => cases h
  | lo :: hi :: tail =>
    have hhi : hi.toNat < 16 := by
      by_contra hhi
      rw [decode, if_neg hhi] at h
      cases h
    have hbytes : lo :: hi :: tail = commandBytes (hi.extractLsb' 0 4) lo ++ tail := by
      rw [commandBytes_split lo hi hhi]
      rfl
    rw [hbytes, decode_commandBytes] at h
    rw [hbytes]
    by_cases hop : takesKey (commandWord (hi.extractLsb' 0 4) lo)
    · rw [if_pos hop] at h
      cases htake : takeKey tail with
      | none => rw [htake] at h; cases h
      | some taken =>
        obtain ⟨key, tail'⟩ := taken
        rw [htake] at h
        obtain ⟨rfl, rfl⟩ := Prod.mk.inj (Except.ok.inj h)
        exact ⟨_, lo, key, rfl, by rw [if_pos hop, List.append_assoc, append_of_takeKey htake]⟩
    · rw [if_neg hop] at h
      obtain ⟨rfl, rfl⟩ := Prod.mk.inj (Except.ok.inj h)
      exact ⟨_, lo, zeroKey, rfl, by rw [if_neg hop, List.append_nil]⟩

/-- A command's row takes two carrier bytes, and the key exactly if its code takes one (R71, R72). -/
theorem decodeCommand_row (op : BitVec 4) (d : Byte) (key : Key) :
    (decodeCommand (commandWord op d) key).wf = true ∧ (decodeCommand (commandWord op d) key).format = .cmd ∧
    encode (decodeCommand (commandWord op d) key) =
      commandBytes op d ++ (if takesKey (commandWord op d) then key.toList else []) := by
  have hkey : keyOk key.toList = true := decide_eq_true key.length_toList
  rw [decodeCommand_commandWord, takesKey_commandWord]
  rcases opcode_cases op with rfl | rfl | rfl | rfl | rfl | rfl | rfl | rfl | rfl | rfl | rfl | rfl | rfl | rfl | rfl | rfl
  · exact ⟨rfl, rfl, rfl⟩
  · exact ⟨rfl, rfl, rfl⟩
  · exact ⟨rfl, rfl, rfl⟩
  · exact ⟨rfl, rfl, rfl⟩
  · exact ⟨hkey, rfl, rfl⟩
  · exact ⟨hkey, rfl, rfl⟩
  all_goals exact ⟨rfl, rfl, rfl⟩

/-- The row of an MHdr byte takes that byte (R61, R62). -/
theorem decodeMhdr_row (b : Byte) :
    (decodeMhdr b).wf = true ∧ (decodeMhdr b).format = .mhdr ∧ encode (decodeMhdr b) = [b] := by
  have htypes : ∀ c : BitVec 3, c = 0 ∨ c = 1 ∨ c = 2 ∨ c = 3 ∨ c = 4 ∨ c = 5 ∨ c = 6 ∨ c = 7 := by decide
  obtain ⟨c, low, rfl⟩ : ∃ c low, b = mhdrByte c low := ⟨_, _, (mhdrByte_split b).symm⟩
  rw [decodeMhdr_mhdrByte]
  rcases htypes c with rfl | rfl | rfl | rfl | rfl | rfl | rfl | rfl <;> exact ⟨rfl, rfl, rfl⟩

/-- The row of a frame-control byte takes that byte (R63, R64). -/
theorem encode_decodeFctrl (d : Direction) (b : Byte) : encode (decodeFctrl d b) = [b] := by
  cases d <;> exact congrArg (fun b => [b]) (fctrlByte_split b)

/-- Settles O52: the bytes are those of the row the decoder read, format by format. -/
theorem encodeInvertsDecode : Obligations.EncodeInvertsDecode := by
  intro f bytes rest i h
  cases f with
  | cmd =>
    obtain ⟨op, d, key, rfl, rfl⟩ := decode_cmd_cases h
    obtain ⟨hwf, hformat, hbytes⟩ := decodeCommand_row op d key
    exact ⟨hwf, hformat, by rw [hbytes]⟩
  | mhdr =>
    obtain ⟨b, rfl, rfl⟩ := decode_byte_inv decode_mhdr_cons h
    obtain ⟨hwf, hformat, hbytes⟩ := decodeMhdr_row b
    exact ⟨hwf, hformat, by rw [hbytes]⟩
  | fctrlUp =>
    obtain ⟨b, rfl, rfl⟩ := decode_byte_inv decode_fctrlUp_cons h
    exact ⟨rfl, rfl, by rw [encode_decodeFctrl]⟩
  | fctrlDown =>
    obtain ⟨b, rfl, rfl⟩ := decode_byte_inv decode_fctrlDown_cons h
    exact ⟨rfl, rfl, by rw [encode_decodeFctrl]⟩

/-! ### The operand bits a command ignores -/

/-- Settles O6: of the sixteen codes only PUSH's meaning has the data in it, and only CALCMIC's and VERIFY's the key. -/
theorem unusedOperandBitsIgnored : Obligations.UnusedOperandBitsIgnored := by
  intro cw cw' key key' s hop hdata hkey
  obtain ⟨op, d, rfl⟩ := commandWord_split cw
  obtain ⟨op', d', rfl⟩ := commandWord_split cw'
  simp only [commandWord_op, commandWord_data] at hop hdata hkey
  subst hop
  rw [decodeCommand_commandWord, decodeCommand_commandWord]
  rcases opcode_cases op with rfl | rfl | rfl | rfl | rfl | rfl | rfl | rfl | rfl | rfl | rfl | rfl | rfl | rfl | rfl | rfl
  · rfl
  · rfl
  · obtain rfl := hdata rfl
    rfl
  · rfl
  · obtain rfl := hkey (.inl rfl)
    rfl
  · obtain rfl := hkey (.inr rfl)
    rfl
  all_goals rfl

/-! ### Words of the spec -/

/-- Settles O50: each word is fixed, and the decoder computes its row. -/
theorem specWordsDecode : Obligations.SpecWordsDecode :=
  ⟨rfl, rfl, rfl, rfl, rfl, rfl, rfl, rfl, rfl, rfl, rfl, rfl, rfl, rfl, rfl⟩

end Sys2Proof.Machine

/-! ## The host commands and the moves that run them -/

namespace Sys2Proof.Machine

/-! ### NOP, CLEAR and the reserved codes -/

/-- Settles O2: NOP's meaning is the state it is given (R91). -/
theorem nopChangesNothing : Obligations.NopChangesNothing := fun _ _ => rfl

/-- INVALIDATE() leaves what R29 says whatever FB, LEN and OVF are then written to. -/
theorem invalidated_invalidate (s : State) (fb : Memory) (len : BitVec 9) (ovf : Bool) :
    Invalidated { s.invalidate with fb := fb, len := len, ovf := ovf } :=
  ⟨rfl, rfl, rfl, rfl, ⟨rfl, rfl, rfl⟩, rfl⟩

/-- Settles O3: INVALIDATE() resets every register but FB, OB, LEN, OVF, BUSY and PEND, and CLEAR empties LEN and OVF. -/
theorem clearStartsNewFrame : Obligations.ClearStartsNewFrame := by
  intro d s
  refine ⟨_, rfl, invalidated_invalidate s s.fb 0 false, rfl, rfl, fun _ => rfl, fun _ => rfl, ⟨rfl, rfl⟩,
    ⟨rfl, rfl, rfl, rfl⟩, ?_⟩
  intro hbusy hpend
  simp only [State.invalidate, State.reset, hbusy, hpend]

/-- A word with a code from 7 up is one of the nine reserved rows, and each records its own code (R94, R212). -/
theorem exec_reservedCode {op : BitVec 4} (hop : 7 ≤ op.toNat) (d : Byte) (key : Key) (s : State) :
    exec (decodeCommand (commandWord op d) key) s = .next (s.badCommand op) := by
  have hcodes : ∀ op : BitVec 4, 7 ≤ op.toNat →
      op = 0x7 ∨ op = 0x8 ∨ op = 0x9 ∨ op = 0xA ∨ op = 0xB ∨ op = 0xC ∨ op = 0xD ∨ op = 0xE ∨ op = 0xF := by decide
  rw [decodeCommand_commandWord]
  rcases hcodes op hop with rfl | rfl | rfl | rfl | rfl | rfl | rfl | rfl | rfl <;> rfl

/-- Settles O5: the nine rows by their meanings, and every word with a code from 7 up as one of them. -/
theorem reservedCodesRecordBadCommand : Obligations.ReservedCodesRecordBadCommand := by
  refine ⟨fun d s => ⟨rfl, rfl, rfl, rfl, rfl, rfl, rfl, rfl, rfl⟩, ?_, rfl⟩
  intro cw key s hop
  obtain ⟨op, d, rfl⟩ := commandWord_split cw
  rw [commandWord_op] at hop ⊢
  exact exec_reservedCode hop d key s

/-! ### PUSH -/

theorem execPush_of_room {s : State} (b : Byte) (hroom : s.len.toNat < s.config.phyMax) :
    exec (.push b) s =
      .next { s.invalidate with fb := s.fb.write s.len.toNat b, len := BitVec.ofNat 9 (s.len.toNat + 1) } :=
  if_pos hroom

theorem execPush_of_full {s : State} (b : Byte) (hfull : s.config.phyMax ≤ s.len.toNat) :
    exec (.push b) s = .next { s.invalidate with ovf := true } :=
  if_neg (Nat.not_lt.mpr hfull)

/-- LEN has room for one more than any length below a legal PHY_MAX (R4, R11). -/
theorem toNat_ofNat_succ_of_lt_phyMax {c : Config} {n : Nat} (hok : c.ok = true) (hn : n < c.phyMax) :
    (BitVec.ofNat 9 (n + 1)).toNat = n + 1 := by
  simp only [Config.ok, Bool.and_eq_true, decide_eq_true_eq] at hok
  simp only [BitVec.toNat_ofNat]
  omega

/-- Settles O4: with room the byte is written at LEN, and without it OVF alone changes. -/
theorem pushAppendsOrOverflows : Obligations.PushAppendsOrOverflows := by
  intro b s hok hwf
  by_cases hroom : s.len.toNat < s.config.phyMax
  · refine ⟨_, execPush_of_room b hroom, invalidated_invalidate s _ _ _, fun _ => rfl, ⟨rfl, rfl⟩,
      ⟨rfl, rfl, rfl, rfl⟩, fun _ => ⟨?_, ?_, ?_, rfl⟩, fun hfull => absurd hroom (Nat.not_lt.mpr hfull)⟩
    · exact Memory.read_write_same _ b hwf
    · exact fun a ha => Memory.read_write_other b ha
    · exact toNat_ofNat_succ_of_lt_phyMax hok hroom
  · exact ⟨_, execPush_of_full b (Nat.not_lt.mp hroom), invalidated_invalidate s _ _ _, fun _ => rfl, ⟨rfl, rfl⟩,
      ⟨rfl, rfl, rfl, rfl⟩, fun h => absurd h hroom, fun _ => ⟨rfl, rfl, fun _ => rfl⟩⟩

/-- PUSH keeps FB canonical. -/
theorem execPush_fb_wf {b : Byte} {s t : State} (hwf : s.fb.wf = true) (ht : exec (.push b) s = .next t) :
    t.fb.wf = true := by
  rcases execPush_cases b s t ht with ⟨-, rfl⟩ | ⟨-, rfl⟩
  · exact Memory.wf_write _ b hwf
  · exact hwf

/-! ### The step on a command -/

/-- Settles O46: the command's arm of the step, with BUSY = 0 (R90). -/
theorem stepRunsTheAcceptedCommand : Obligations.StepRunsTheAcceptedCommand := by
  intro s cw key rest hbusy hmoves
  rw [step, hmoves]
  exact if_neg (by simp [hbusy])

/-- While BUSY = 1 a command waits and the engine moves (R90, R182). -/
theorem step_command_of_busy {s : State} {cw : CmdWord} {key : Key} {rest : List Move} (hbusy : s.busy = true)
    (hmoves : s.moves = .command cw key :: rest) : step s = respond s := by
  rw [step, hmoves]
  exact if_pos hbusy

theorem respond_of_pend {s : State} {p : Request} (hbusy : s.busy = true) (hpend : s.pend = some p) :
    respond s = .next (s.completeMic p.kind (cmac p.key p.msg)) := by
  rw [respond, if_pos hbusy, hpend]

/-- Settles O47: the engine's completion writes the MIC results, PEND and BUSY only (R168, R171). -/
theorem noCommandAcceptedWhileBusy : Obligations.NoCommandAcceptedWhileBusy := by
  intro s p cw key rest hbusy hpend hmoves
  exact ⟨_, (step_command_of_busy hbusy hmoves).trans (respond_of_pend hbusy hpend), rfl, rfl, rfl, rfl,
    ⟨fun _ => rfl, rfl, rfl⟩, ⟨rfl, rfl⟩, ⟨rfl, rfl⟩, fun _ => rfl, rfl⟩

/-- A run of the block begins with one step of it. -/
theorem run_core_succ {s t : State} (k : Nat) (h : step s = .next t) :
    Host.Core.run core (k + 1) s = Host.Core.run core k t :=
  run_succ core k s t h

/-- The step on an accepted CLEAR (R90, R92). -/
theorem step_clear {s : State} {d : Byte} {key : Key} {rest : List Move} (hbusy : s.busy = false)
    (hmoves : s.moves = .command (commandWord 0x1 d) key :: rest) :
    step s = .next { s.invalidate with len := 0, ovf := false, moves := rest } := by
  rw [stepRunsTheAcceptedCommand s _ key rest hbusy hmoves, decodeCommand_commandWord]
  rfl

/-- The step on an accepted PUSH (R90). -/
theorem step_push {s : State} {b : Byte} {key : Key} {rest : List Move} (hbusy : s.busy = false)
    (hmoves : s.moves = .command (commandWord 0x2 b) key :: rest) :
    step s = exec (.push b) { s with moves := rest } := by
  rw [stepRunsTheAcceptedCommand s _ key rest hbusy hmoves, decodeCommand_commandWord]
  rfl

/-! ### LOAD -/

/-- What is true in t after CLEAR and one PUSH for each of these bytes, from s (R92, R93, R96). -/
structure Loaded (s t : State) (bytes : List Byte) : Prop where
  config : t.config = s.config
  frameForm : t.fb.wf = true
  len : t.len.toNat = min bytes.length s.config.phyMax
  frame : ∀ i, i < min bytes.length s.config.phyMax → t.fb.read i = bytes.getD i 0
  ovf : t.ovf = decide (s.config.phyMax < bytes.length)
  invalidated : Invalidated t
  output : SameOutputBytes s t
  control : SameControl s t

theorem Loaded.clear {s : State} (hwf : s.fb.wf = true) (moves : List Move) :
    Loaded s { s.invalidate with len := 0, ovf := false, moves := moves } [] where
  config := rfl
  frameForm := hwf
  len := by simp
  frame := by simp
  ovf := by simp
  invalidated := invalidated_invalidate { s with moves := moves } s.fb 0 false
  output := fun _ => rfl
  control := ⟨rfl, rfl⟩

/-- A PUSH loads one byte more, or sets OVF for one byte too many. -/
theorem Loaded.push {s t : State} {bytes : List Byte} (hok : s.config.ok = true) (h : Loaded s t bytes) (b : Byte) :
    ∃ u, exec (.push b) t = .next u ∧ u.moves = t.moves ∧ Loaded s u (bytes ++ [b]) := by
  obtain ⟨u, hu, hinv, hout, ⟨hbusy, hpend⟩, ⟨hconfig, hmoves, -⟩, hroom, hfull⟩ :=
    pushAppendsOrOverflows b t (h.config ▸ hok) h.frameForm
  have hlen := h.len
  have hovf := h.ovf
  obtain ⟨hbusy', hpend'⟩ := h.control
  rw [h.config] at hroom hfull
  refine ⟨u, hu, hmoves, ?_⟩
  suffices hframe : u.len.toNat = min (bytes ++ [b]).length s.config.phyMax ∧
      (∀ i, i < min (bytes ++ [b]).length s.config.phyMax → u.fb.read i = (bytes ++ [b]).getD i 0) ∧
      u.ovf = decide (s.config.phyMax < (bytes ++ [b]).length) by
    obtain ⟨hlen', hframe', hovf'⟩ := hframe
    exact ⟨hconfig.trans h.config, execPush_fb_wf h.frameForm hu, hlen', hframe', hovf', hinv,
      fun a => (hout a).trans (h.output a), hbusy.trans hbusy', hpend.trans hpend'⟩
  rw [List.length_append, List.length_singleton]
  by_cases hlt : bytes.length < s.config.phyMax
  · obtain ⟨hsame, hother, hlen', hovf'⟩ := hroom (by omega)
    rw [hlen, Nat.min_eq_left (by omega)] at hsame hother hlen'
    refine ⟨by omega, fun i hi => ?_, by rw [hovf', hovf, decide_eq_decide]; omega⟩
    by_cases hlast : i = bytes.length
    · simp [hlast, hsame]
    · rw [hother i hlast, h.frame i (by omega), List.getD_append _ _ _ _ (by omega)]
  · obtain ⟨hovf', hlen', hsame⟩ := hfull (by omega)
    refine ⟨by rw [hlen']; omega, fun i hi => ?_, by rw [hovf', eq_comm, decide_eq_true_iff]; omega⟩
    rw [hsame, h.frame i (by omega), List.getD_append _ _ _ _ (by omega)]

theorem Loaded.withMoves {s t : State} {bytes : List Byte} (h : Loaded s t bytes) (moves : List Move) :
    Loaded s { t with moves := moves } bytes :=
  { h with }

/-- The PUSHes of LOAD, run after the bytes already loaded. -/
theorem Loaded.run_pushes {s : State} (hok : s.config.ok = true) (hbusy : s.busy = false) (rest : List Move) :
    ∀ (bytes loaded : List Byte) (t : State), Loaded s t loaded →
      t.moves = bytes.map (fun b => .command (commandWord 0x2 b) zeroKey) ++ rest →
      ∃ u, Host.Core.run core bytes.length t = .next u ∧ u.moves = rest ∧ Loaded s u (loaded ++ bytes)
  | [], loaded, t, h, hmoves => ⟨t, rfl, hmoves, by rwa [List.append_nil]⟩
  | b :: bytes, loaded, t, h, hmoves => by
    have hstep := step_push (h.control.1.trans hbusy) hmoves
    obtain ⟨u, hpush, hmoves', hu⟩ := (h.withMoves _).push hok b
    obtain ⟨v, hrun, hrest, hv⟩ := Loaded.run_pushes hok hbusy rest bytes (loaded ++ [b]) u hu hmoves'
    rw [List.append_assoc] at hv
    exact ⟨v, (run_core_succ _ (hstep.trans hpush)).trans hrun, hrest, hv⟩

/-- Settles O7: CLEAR loads no bytes, and each PUSH after it one more. -/
theorem loadFillsFrameBuffer : Obligations.LoadFillsFrameBuffer := by
  intro bytes s hok hwf hbusy
  have hstep := step_clear (s := { s with moves := loadMoves bytes ++ s.moves }) hbusy rfl
  obtain ⟨t, hrun, hmoves, ht⟩ :=
    Loaded.run_pushes hok hbusy s.moves bytes [] _ (Loaded.clear (s := s) hwf _) rfl
  rw [List.nil_append] at ht
  exact ⟨t, (run_core_succ _ hstep).trans hrun, hmoves, ht.config, ht.len, ht.frame, ht.ovf, ht.invalidated,
    ht.output, ht.control⟩

/-! ### The words of the opcode table, placed -/

/-- The code and the data bits of the word that a number is (R71). -/
theorem ofNat_eq_commandWord (w : Nat) :
    BitVec.ofNat 12 w = commandWord (BitVec.ofNat 4 (w / 256)) (BitVec.ofNat 8 w) := by
  apply BitVec.eq_of_toNat_eq
  rw [commandWord, BitVec.toNat_append, ← Nat.shiftLeft_add_eq_or_of_lt (BitVec.isLt _), Nat.shiftLeft_eq]
  simp only [BitVec.toNat_ofNat]
  omega

/-- The two bytes that carry the word of a number below 4096, low byte first (log 9). -/
theorem commandBytes_ofNat {w : Nat} (hw : w < 4096) :
    commandBytes (BitVec.ofNat 4 (w / 256)) (BitVec.ofNat 8 w) = [BitVec.ofNat 8 w, BitVec.ofNat 8 (w / 256)] := by
  have hhigh : (BitVec.ofNat 8 (w / 256)).toNat < 16 := by
    simp only [BitVec.toNat_ofNat]
    omega
  rw [← commandBytes_split _ _ hhigh]
  congr 1
  apply BitVec.eq_of_toNat_eq
  simp [BitVec.extractLsb'_toNat]

/-- A 16-bit row of the opcode table is read as its command word with the key of sixteen 0x00. -/
theorem decodeTableWord_command {w : Nat} (hw : w < 4096) :
    decodeTableWord 16 w = some (decodeCommand (BitVec.ofNat 12 w) zeroKey) := by
  have hkey : takeKey (List.replicate 16 0) = some (zeroKey, []) := rfl
  have hdecode := decode_commandBytes (BitVec.ofNat 4 (w / 256)) (BitVec.ofNat 8 w) (List.replicate 16 0)
  rw [commandBytes_ofNat hw, ← ofNat_eq_commandWord, hkey] at hdecode
  rw [decodeTableWord, if_neg (by decide), if_pos (by omega)]
  simp only [List.cons_append, List.nil_append] at hdecode
  rw [hdecode]
  by_cases htakes : takesKey (BitVec.ofNat 12 w) <;> simp [htakes]

/-- An 8-bit row of the opcode table is read as its MHdr byte. -/
theorem decodeTableWord_mhdr {w : Nat} (hw : w < 256) :
    decodeTableWord 8 w = some (decodeMhdr (BitVec.ofNat 8 w)) := by
  rw [decodeTableWord, if_pos (by decide), if_pos hw, decode_mhdr_cons]

/-- Every shortest frame has the five bytes of the split (R127, R135). -/
theorem five_le_shortestFrame (mhdr : Byte) : 5 ≤ (shortestFrame mhdr).toNat := by
  unfold shortestFrame
  split <;> decide

/-- The frame placed for an MHdr byte passes PARSE's two checks, so PARSE is the row of that byte (R125, R130). -/
theorem parse_presentFrame (s : State) (b : Byte) (moves : List Move) :
    State.parse { s.presentFrame b with moves := moves } =
      (State.invalidate { s.presentFrame b with moves := moves }).dispatch b := by
  have hmhdr : (s.presentFrame b).fb.read 0 = b := Memory.read_write_same 0 b rfl
  have hlen : 5 ≤ (s.presentFrame b).len.toNat := five_le_shortestFrame b
  rcases parse_cases { s.presentFrame b with moves := moves } with ⟨hovf, -⟩ | ⟨-, hshort, -⟩ | ⟨-, -, hparse⟩
  · cases hovf
  · exact absurd hshort (Nat.not_lt.mpr hlen)
  · rw [hparse, hmhdr]

/-- Settles O53: the placed word is the next command of a ready block, and a placed MHdr byte's command is PARSE. -/
theorem fetchWordRunsTheInstruction : Obligations.FetchWordRunsTheInstruction := by
  constructor
  · intro s w hw
    obtain ⟨-, hformat, -⟩ := decodeCommand_row (BitVec.ofNat 4 (w / 256)) (BitVec.ofNat 8 w) zeroKey
    rw [← ofNat_eq_commandWord] at hformat
    exact ⟨_, decodeTableWord_command hw, hformat,
      stepRunsTheAcceptedCommand (s.withFetchWord 16 w) _ _ _ rfl rfl⟩
  · intro s w hw
    obtain ⟨-, hformat, -⟩ := decodeMhdr_row (BitVec.ofNat 8 w)
    refine ⟨_, decodeTableWord_mhdr hw, hformat, ?_⟩
    calc step (s.withFetchWord 8 w)
      _ = .next (State.parse { s.withFetchWord 8 w with moves := s.moves }) :=
        stepRunsTheAcceptedCommand (s.withFetchWord 8 w) _ _ _ rfl rfl
      _ = .next ((State.invalidate { s.withFetchWord 8 w with moves := s.moves }).dispatch (BitVec.ofNat 8 w)) :=
        congrArg _ (parse_presentFrame s (BitVec.ofNat 8 w) s.moves)
      _ = exec (decodeMhdr (BitVec.ofNat 8 w)) (State.invalidate { s.withFetchWord 8 w with moves := s.moves }) :=
        (exec_decodeMhdr _ _).symm

end Sys2Proof.Machine

/-! ## The frame-control rows -/

namespace Sys2Proof.Machine

/-! ### The row of a frame-control byte -/

/-- The row of a byte writes the registers of FCTRL_DECODE on that byte in the row's direction (R105). -/
theorem exec_decodeFctrl (d : Direction) (b : Byte) (s : State) :
    exec (decodeFctrl d b) s = .next { s with results := s.results.withFrameControl (fctrlDecode b d) } := by
  cases d with
  | uplink => rw [decodeFctrl, exec, execFctrlUp, fctrlByte_split]
  | downlink => rw [decodeFctrl, exec, execFctrlDown, fctrlByte_split]

/-- Settles O8: the row of a byte through FCTRL_DECODE, and a row's own operands as the bits of the byte they make. -/
theorem fctrlRowsWriteTheSevenRegisters : Obligations.FctrlRowsWriteTheSevenRegisters := by
  refine ⟨exec_decodeFctrl .uplink, exec_decodeFctrl .downlink, fun a q k r p n s => ⟨?_, ?_⟩⟩
  · obtain ⟨h7, h6, h5, h4, hn⟩ := fctrlByte_fields a q k r n
    exact ⟨_, rfl, h7, h6, h5, h4, rfl, hn⟩
  · obtain ⟨h7, h6, h5, h4, hn⟩ := fctrlByte_fields a r k p n
    exact ⟨_, rfl, h7, h6, h5, h4, rfl, hn⟩

/-- Settles O9: FCTRL_DECODE keeps the raw byte, and the row of a byte is encoded in that byte (R108). -/
theorem fctrlEncodeGivesTheByteBack : Obligations.FctrlEncodeGivesTheByteBack :=
  fun b d => ⟨fctrlDecode_fctrl b d, encode_decodeFctrl d b⟩

/-! ### The frame-control byte of a data message -/

/-- Each data row is the dispatcher's branch for its type code, variant and direction (R62, R151). -/
theorem exec_dataRow {low : BitVec 5} (s : State) {row : Instr × Variant × Direction × BitVec 3}
    (hrow : row ∈ dataRows low) :
    exec row.1 s = .next (s.dataBranch (mhdrByte row.2.2.2 low) row.2.1 row.2.2.1) := by
  simp only [dataRows, List.mem_cons, List.not_mem_nil, or_false] at hrow
  rcases hrow with rfl | rfl | rfl | rfl
  · rfl
  · rfl
  · rfl
  · rfl

/-- On a frame that is long enough the branch of a data message commits fields with the frame-control record of FB[5]
(R110, R115). -/
theorem dataBranch_fits (s : State) (mhdr : Byte) (v : Variant) (d : Direction)
    (hfits : 12 + s.wireFOptsLen ≤ s.len.toNat) :
    ∃ f, dataDecode s.mac d = .ok f ∧ f.header.fc = fctrlDecode (s.fb.read 5) d ∧
      s.dataBranch mhdr v d = s.commit mhdr v (fun r => r.withData f) := by
  obtain ⟨f, hdecode, -, hheader, -⟩ := dataDecode_fits s d hfits
  rw [fhdrDecode_fits s d hfits] at hheader
  have hfc := congrArg FrameHeader.fc (Except.ok.inj hheader)
  exact ⟨f, hdecode, hfc.symm, by rw [State.dataBranch, hdecode]⟩

/-- Settles O19: the data row and the frame-control row both write the record FCTRL_DECODE gives on FB[5]. -/
theorem dataRowsRunTheFctrlRow : Obligations.DataRowsRunTheFctrlRow := by
  intro low s hfits row hrow
  obtain ⟨f, -, hfc, hbranch⟩ := dataBranch_fits s (mhdrByte row.2.2.2 low) row.2.1 row.2.2.1 hfits
  refine ⟨_, _, (exec_dataRow s hrow).trans (congrArg _ hbranch), exec_decodeFctrl _ _ s, ?_⟩
  rw [← hfc]
  exact ⟨rfl, rfl, rfl, rfl, rfl, rfl, rfl⟩

end Sys2Proof.Machine

/-! ## The frame header and the data rows -/

namespace Sys2Proof.Machine

/-! ### The frame header -/

/-- Settles O10: FHDR_DECODE cuts mac into the four consecutive parts that FHDR_ENCODE puts together again. -/
theorem headerRoundTrip : Obligations.HeaderRoundTrip := by
  intro mac d h hdecode
  rcases fhdrDecode_cases mac d with ⟨-, hcase⟩ | ⟨-, -, hcase⟩ | ⟨hlong, hcase⟩
  · cases hdecode.symm.trans hcase
  · cases hdecode.symm.trans hcase
  · cases hdecode.symm.trans hcase
    have hn : (byteAt mac 4).toNat % 16 < 16 := Nat.mod_lt _ (by decide)
    simp only [fctrlDecode_fctrl, fctrlDecode_foptslen, toNat_lowNibble]
    generalize (byteAt mac 4).toNat % 16 = n at hlong hn ⊢
    have hbytes : fhdrEncode (BitVec.ofNat 32 (le (sub mac 0 4))) (byteAt mac 4) (BitVec.ofNat 16 (le (sub mac 5 2)))
        (sub mac 7 n) = sub mac 0 (7 + n) := by
      rw [fhdrEncode, lebytes_register (by simp; omega) rfl, lebytes_register (by simp; omega) rfl,
        ← sub_one mac 4 (by omega), ← sub_append mac 0 7 n, ← sub_append mac 0 5 2, ← sub_append mac 0 4 1]
    have hlen : (BitVec.ofNat 5 (7 + n)).toNat = 7 + n := by
      rw [BitVec.toNat_ofNat]
      omega
    rw [hlen, length_sub]
    exact ⟨hbytes, by omega, by omega, rfl, by omega, by omega, hlong⟩

/-! ### The length checks of a data row -/

/-- R116: FHDR_DECODE on a MacPayload of fewer than 5 bytes. -/
theorem fhdrDecode_of_len_lt_ten (s : State) (d : Direction) (h : s.len.toNat < 10) :
    fhdrDecode s.mac d = .error { kind := .truncatedFrame, sub := 4 } := by
  have hmac := length_mac s
  rcases fhdrDecode_cases s.mac d with ⟨-, hcase⟩ | ⟨hlong, -⟩ | ⟨hlong, -⟩
  · exact hcase
  · omega
  · omega

/-- R117: FHDR_DECODE on a MacPayload that has the frame-control byte and not all the header it announces. -/
theorem fhdrDecode_of_len_lt_header (s : State) (d : Direction) (h10 : 10 ≤ s.len.toNat)
    (h : s.len.toNat < 12 + s.wireFOptsLen) :
    fhdrDecode s.mac d = .error { kind := .truncatedFrame, sub := 5 } := by
  have hmac := length_mac s
  have hn := byteAt_mac_four s h10
  rcases fhdrDecode_cases s.mac d with ⟨hshort, -⟩ | ⟨-, -, hcase⟩ | ⟨hlong, -⟩
  · omega
  · exact hcase
  · omega

/-- A data branch takes the error its header answers (R150). -/
theorem dataBranch_of_fhdrDecode_error {s : State} {d : Direction} {e : Raise} (mhdr : Byte) (v : Variant)
    (h : fhdrDecode s.mac d = .error e) : s.dataBranch mhdr v d = s.raise e := by
  rw [State.dataBranch, dataDecode, h]

/-- Settles O17: the two errors of FHDR_DECODE, taken by the row's branch. -/
theorem dataRowsCheckTheHeader : Obligations.DataRowsCheckTheHeader := by
  intro low s _ row hrow
  rw [exec_dataRow s hrow]
  constructor
  · intro h
    rw [dataBranch_of_fhdrDecode_error _ _ (fhdrDecode_of_len_lt_ten s _ h)]
    rfl
  · intro h10 h
    rw [dataBranch_of_fhdrDecode_error _ _ (fhdrDecode_of_len_lt_header s _ h10 h)]
    rfl

/-! ### The registers of a data row -/

/-- The type code of an MHdr byte made from it (R61, R129). -/
@[simp] theorem mtypeOf_mhdrByte (c : BitVec 3) (low : BitVec 5) : mtypeOf (mhdrByte c low) = c :=
  (mhdrByte_fields c low).1

/-- An integer register of as many bytes as it is read from holds their little-endian integer (R43). -/
theorem toNat_register {bs : List Byte} {n w : Nat} (hn : bs.length = n) (hw : w = 8 * n) :
    (BitVec.ofNat w (le bs)).toNat = le bs := by
  subst hn hw
  rw [BitVec.toNat_ofNat, Nat.pow_mul]
  exact Nat.mod_eq_of_lt (le_lt bs)

/-- MACLEN holds the length of MacPayload: LEN has 9 bits (R13). -/
theorem toNat_maclen (s : State) : (BitVec.ofNat 9 (s.len.toNat - 5)).toNat = s.len.toNat - 5 :=
  Nat.mod_eq_of_lt (by have := s.len.isLt; omega)

/-- A byte-array register that a shorter slice of memory is put into, as FOPTS is (R115). -/
theorem toList_fit_slice {n k : Nat} (m : Memory) (a : Nat) (h : k ≤ n) :
    (fit n (m.slice a k)).toList = m.slice a k ++ List.replicate (n - k) 0 := by
  rw [toList_fit, Memory.length_slice, List.take_of_length_le (by rwa [Memory.length_slice])]

/-- The success commit keeps the MIC results; PARSE clears them before it (R29, R125). -/
theorem sameMic_commit (s : State) (mhdr : Byte) (v : Variant) (f : Results → Results) :
    SameMic s (s.commit mhdr v f) :=
  ⟨rfl, rfl, rfl⟩

/-- The success commit writes nothing that a PARSE never writes (R125, R132). -/
theorem parseFrame_commit (s : State) (mhdr : Byte) (v : Variant) (f : Results → Results) :
    ParseFrame s (s.commit mhdr v f) :=
  ⟨⟨fun _ => rfl, rfl, rfl⟩, fun _ => rfl, ⟨rfl, rfl⟩, ⟨rfl, rfl, rfl, rfl⟩⟩

/-- Settles O18: the row commits the fields of DATA_DECODE, over the common registers of the commit. -/
theorem dataRowsUnpackTheMessage : Obligations.DataRowsUnpackTheMessage := by
  intro low s hfits row hrow
  have hn := wireFOptsLen_lt s
  obtain ⟨f, hdecode, -, hbranch⟩ := dataBranch_fits s (mhdrByte row.2.2.2 low) row.2.1 row.2.2.1 hfits
  obtain ⟨hdir, haddr, -, hctrl, hoptslen, hcnt, hopts, hhdrlen, hnoport, hport⟩ :=
    withData_fits s hfits row.2.2.1 f hdecode { s.results with
      mhdr := mhdrByte row.2.2.2 low, mtype := mtypeOf (mhdrByte row.2.2.2 low)
      maclen := BitVec.ofNat 9 (s.len.toNat - 5), mic := fit 4 s.trailer }
  have hcnt' := (congrArg BitVec.toNat hcnt).trans (toNat_register (Memory.length_slice ..) rfl)
  have hopts' := (congrArg Vector.toList hopts).trans (toList_fit_slice s.fb 8 (Nat.le_of_lt_succ hn))
  exact ⟨_, (exec_dataRow s hrow).trans (congrArg _ hbranch), rfl, rfl, rfl, sameMic_commit .., rfl,
    parseFrame_commit .., rfl, mtypeOf_mhdrByte _ _, toNat_maclen s, toList_fit_of_length (Memory.length_slice ..),
    hdir, haddr, hctrl, hoptslen, hcnt', hopts', hhdrlen, hnoport, hport,
    rfl, rfl, rfl, rfl, rfl, rfl, rfl, rfl, rfl⟩

end Sys2Proof.Machine

/-! ## PARSE and the dispatcher -/

namespace Sys2Proof.Machine

/-! ### PARSE and its two commits -/

/-- PARSE's meaning is the state that `State.parse` makes (R125). -/
theorem exec_parse (d : Byte) (s : State) : exec (.parse d) s = .next s.parse := rfl

/-- An error taken on the invalidated state is PARSE's failure commit (R133, R214). -/
theorem parseFailed_raise (s : State) (e : Raise) : ParseFailed s (s.invalidate.raise e) e.kind e.sub :=
  ⟨rfl, rfl, rfl, rfl, ⟨rfl, rfl, rfl⟩, rfl, ⟨fun _ => rfl, rfl, rfl⟩, fun _ => rfl, ⟨rfl, rfl⟩, rfl, rfl, rfl, rfl⟩

/-- A commit on the invalidated state is PARSE's success commit (R132). -/
theorem parseSucceeded_commit (s : State) (mhdr : Byte) (v : Variant) (f : Results → Results) :
    ParseSucceeded s (s.invalidate.commit mhdr v f) v :=
  ⟨rfl, rfl, rfl, ⟨rfl, rfl, rfl⟩, rfl, parseFrame_commit s.invalidate mhdr v f⟩

/-! ### PARSE commits on a frame that fits and fails on every other -/

/-- The error of the first check that fails, in the order of R213. On a frame that passes them all it means nothing. -/
def State.firstFailure (s : State) : Raise :=
  if s.ovf = true then ⟨.overflow, 0⟩
  else if s.len.toNat < 5 then ⟨.truncatedFrame, 1⟩
  else if 6 ≤ s.wireType then ⟨.unsupportedType, BitVec.ofNat 4 s.wireType⟩
  else if s.wireType = 0 then ⟨.truncatedFrame, 2⟩
  else if s.wireType = 1 then ⟨.truncatedFrame, 3⟩
  else if s.len.toNat - 5 < 5 then ⟨.truncatedFrame, 4⟩
  else ⟨.truncatedFrame, 5⟩

/-- A check that fails records an error kind, never NO_ERROR (R206). -/
theorem firstFailure_kind_ne_noError (s : State) : s.firstFailure.kind ≠ .noError := by
  unfold State.firstFailure
  split_ifs <;> simp

/-- PARSE leaves a variant on a frame that fits its type code, and on every other frame it takes the error of the first
check that fails (R135, R213). -/
theorem parse_fits_or_fails (s : State) :
    (s.ovf = false ∧ FrameFits s ∧ s.parse.variant ≠ .noVariant) ∨
    (¬ (s.ovf = false ∧ FrameFits s) ∧ s.parse = s.invalidate.raise s.firstFailure) := by
  unfold FrameFits State.firstFailure
  rcases parse_outcomes s with ⟨ho, hp⟩ | ⟨ho, hl, hp⟩ | ⟨ho, hl, h6, hp⟩ | ⟨ho, hl, h0, hne, hp⟩ |
    ⟨ho, hl, h1, hne, hne', hp⟩ | ⟨ho, hl, h2, h5, hs, hp⟩ | ⟨ho, hl, h2, h5, hs, hp⟩ | ⟨ho, h0, hl, hp⟩ |
    ⟨ho, h1, hl, hp⟩ | ⟨ho, h2, h5, hl, v, d, f, -, hv, -, -, -, -, hp⟩
  · exact .inr ⟨by simp [ho], by simp [ho, hp]⟩
  · refine .inr ⟨by omega, ?_⟩
    simp [ho, hp, hl]
  · refine .inr ⟨by omega, ?_⟩
    simp [ho, hp, h6, Nat.not_lt.mpr hl]
  · refine .inr ⟨by omega, ?_⟩
    simp [ho, hp, h0, Nat.not_lt.mpr hl]
  · refine .inr ⟨by omega, ?_⟩
    simp [ho, hp, h1, Nat.not_lt.mpr hl]
  · refine .inr ⟨by omega, ?_⟩
    rw [hp, if_neg (by simp [ho]), if_neg (by omega), if_neg (by omega), if_neg (by omega), if_neg (by omega),
      if_pos (by omega)]
  · refine .inr ⟨by omega, ?_⟩
    rw [hp, if_neg (by simp [ho]), if_neg (by omega), if_neg (by omega), if_neg (by omega), if_neg (by omega),
      if_neg (by omega)]
  · exact .inl ⟨ho, .inl ⟨h0, hl⟩, by simp [hp]⟩
  · exact .inl ⟨ho, .inr (.inl ⟨h1, hl⟩), by simp [hp]⟩
  · exact .inl ⟨ho, .inr (.inr ⟨h2, h5, hl⟩), by simp [hp, hv]⟩

/-- PARSE of a frame that passes every check (R135). -/
theorem parse_held_of_fits {s : State} (ho : s.ovf = false) (hf : FrameFits s) : s.parse.variant ≠ .noVariant := by
  rcases parse_fits_or_fails s with ⟨-, -, hv⟩ | ⟨hn, -⟩
  · exact hv
  · exact absurd ⟨ho, hf⟩ hn

/-- PARSE of a refused frame is the failure commit with the first check's error (R133). -/
theorem parseFailed_of_refused {s : State} (h : ¬ (s.ovf = false ∧ FrameFits s)) :
    ParseFailed s s.parse s.firstFailure.kind s.firstFailure.sub := by
  rcases parse_fits_or_fails s with ⟨ho, hf, -⟩ | ⟨-, hp⟩
  · exact absurd ⟨ho, hf⟩ h
  · rw [hp]
    exact parseFailed_raise s s.firstFailure

/-- A PARSE that leaves a variant leaves the one the type code names, by the success commit with the common registers of
R13: the variant's own registers are others. -/
theorem parse_held_common (s : State) (hv : s.parse.variant ≠ .noVariant) :
    s.parse.variant.tag.toNat = s.wireType ∧ ParseSucceeded s s.parse s.parse.variant ∧
      s.parse.results.mhdr = s.fb.read 0 ∧ s.parse.results.mtype.toNat = s.wireType ∧
      s.parse.results.maclen.toNat = s.len.toNat - 5 := by
  rcases parse_held_cases s hv with ⟨h0, -, hp⟩ | ⟨h1, -, hp⟩ | ⟨-, -, -, v, d, f, htag, -, -, -, -, -, hp⟩
  · rw [hp]
    exact ⟨by rw [h0]; rfl, parseSucceeded_commit .., rfl, mtypeOf_read s, toNat_maclen s⟩
  · rw [hp]
    exact ⟨by rw [h1]; rfl, parseSucceeded_commit .., rfl, mtypeOf_read s, toNat_maclen s⟩
  · rw [hp]
    exact ⟨htag, parseSucceeded_commit .., rfl, mtypeOf_read s, toNat_maclen s⟩

/-- Settles O22: a refused frame takes the error of the first failing check, on the invalidated state. -/
theorem parseErrorPriority : Obligations.ParseErrorPriority := by
  intro d s h
  have hfail := parseFailed_of_refused h
  refine ⟨s.parse, rfl, ?_⟩
  unfold State.firstFailure at hfail
  split_ifs at hfail ⊢ <;> exact hfail

/-- Settles O21: a frame that fits leaves a variant by one commit, and every other frame fails its first check. -/
theorem parseSucceedsExactlyOnFittingFrames : Obligations.ParseSucceedsExactlyOnFittingFrames := by
  intro d s ho
  constructor
  · intro hfits
    have hv := parse_held_of_fits ho hfits
    obtain ⟨htag, hsucceeded, hmhdr, hmtype, hmaclen⟩ := parse_held_common s hv
    exact ⟨s.parse, s.parse.variant, rfl, hv, htag, hsucceeded, hmhdr, hmtype, hmaclen, parse_mic s hv⟩
  · intro hmisfit
    exact ⟨s.parse, _, _, rfl, firstFailure_kind_ne_noError s, parseFailed_of_refused fun h => hmisfit h.2⟩

/-! ### A second PARSE -/

/-- INVALIDATE() makes the same of the state after a PARSE: it resets every register that PARSE writes (R29, R125). -/
theorem invalidate_parse (s : State) : s.parse.invalidate = s.invalidate := by
  rw [parse_frame s]
  rfl

/-- PARSE starts with INVALIDATE(), so a second one starts where the first did (R136). -/
theorem parse_parse (s : State) : s.parse.parse = s.parse :=
  parse_congr s.parse s (invalidate_parse s)

/-- Settles O25: PARSE is a function of the invalidated state, which PARSE does not change. -/
theorem parseIsIdempotent : Obligations.ParseIsIdempotent := by
  intro d d' s t ht
  obtain rfl : s.parse = t := Host.Outcome.next.inj ht
  rw [exec_parse, parse_parse]

/-! ### The checks before the variant's own -/

/-- The shortest frame that any variant accepts has 12 bytes (R135). -/
theorem FrameFits.twelve_le_len {s : State} (h : FrameFits s) : 12 ≤ s.len.toNat := by
  unfold FrameFits at h
  omega

/-- Only the six supported type codes have frames that fit (R131, R135). -/
theorem FrameFits.wireType_le_five {s : State} (h : FrameFits s) : s.wireType ≤ 5 := by
  unfold FrameFits at h
  omega

/-- Settles O11: Overflow is the first check, and PARSE is idempotent. -/
theorem parseRefusesOverflow : Obligations.ParseRefusesOverflow := by
  intro d s ho
  have hfail := parseFailed_of_refused (s := s) (by simp [ho])
  rw [State.firstFailure, if_pos ho] at hfail
  exact ⟨s.parse, rfl, hfail, by rw [parse_frame s]; exact ho, by rw [exec_parse, parse_parse]⟩

/-- Settles O12: with OVF = 0 the first check that fails is PHY_SHORT. -/
theorem parseRefusesShortFrame : Obligations.ParseRefusesShortFrame := by
  intro d s ho hshort
  have hfail := parseFailed_of_refused (s := s) fun h => by have := h.2.twelve_le_len; omega
  rw [State.firstFailure, if_neg (by simp [ho]), if_pos hshort] at hfail
  exact ⟨s.parse, rfl, hfail⟩

/-- Settles O14: the two rows are the error alone, and past PARSE's own checks the type code is the next one. -/
theorem unsupportedTypeRows : Obligations.UnsupportedTypeRows := by
  refine ⟨fun low s => ⟨rfl, rfl⟩, rfl, fun d s ho hlen htype => ?_⟩
  have hfail := parseFailed_of_refused (s := s) fun h => by have := h.2.wireType_le_five; omega
  rw [State.firstFailure, if_neg (by simp [ho]), if_neg (by omega), if_pos htype] at hfail
  exact ⟨s.parse, rfl, hfail⟩

/-! ### Past its checks PARSE is the row of the MHdr byte -/

/-- PARSE past its own two checks (R125). -/
theorem parse_eq_dispatch {s : State} (ho : s.ovf = false) (hlen : 5 ≤ s.len.toNat) :
    s.parse = s.invalidate.dispatch (s.fb.read 0) := by
  rw [State.parse, if_neg (by simp [ho]), if_neg (by omega)]

/-- Settles O13: the dispatcher's branch on a byte is the row the byte decodes to. -/
theorem parseRunsTheMhdrRow : Obligations.ParseRunsTheMhdrRow := by
  intro d s ho hlen
  rw [exec_parse, parse_eq_dispatch ho hlen, exec_decodeMhdr]

/-! ### PARSE reads the frame only -/

/-- MacPayload is frame bytes (R128). -/
theorem mac_congr {s t : State} (hlen : t.len = s.len) (hfb : ∀ i, i < s.len.toNat → t.fb.read i = s.fb.read i) :
    t.mac = s.mac := by
  rw [State.mac, State.mac, hlen]
  exact Memory.slice_congr.mpr fun i _ => hfb _ (by omega)

/-- The MIC trailer of a frame that has one is frame bytes (R128). -/
theorem trailer_congr {s t : State} (hlen : t.len = s.len) (h4 : 4 ≤ s.len.toNat)
    (hfb : ∀ i, i < s.len.toNat → t.fb.read i = s.fb.read i) : t.trailer = s.trailer := by
  rw [State.trailer, State.trailer, hlen]
  exact Memory.slice_congr.mpr fun i _ => hfb _ (by omega)

/-- One dispatch on two states with the same MacPayload, trailer, LEN and registers leaves the same results (R125). -/
theorem dispatch_congr {s t : State} (mhdr : Byte) (hmac : t.mac = s.mac) (htrailer : t.trailer = s.trailer)
    (hlen : t.len = s.len) (hparse : SameParse s t) :
    SameParse (s.dispatch mhdr) (t.dispatch mhdr) ∧ SameError (s.dispatch mhdr) (t.dispatch mhdr) := by
  obtain ⟨hvariant, hresults⟩ := hparse
  rcases dispatch_determined s.mac mhdr with ⟨e, h⟩ | ⟨v, f, h⟩
  · rw [h s rfl, h t hmac]
    exact ⟨⟨hvariant, hresults⟩, rfl, rfl⟩
  · rw [h s rfl, h t hmac]
    simp [SameParse, SameError, hresults, hlen, htrailer]

/-- What PARSE makes of the frame depends on FB below LEN, LEN and OVF only (R136). -/
theorem parse_same_of_frame {s t : State} (hlen : t.len = s.len) (hovf : t.ovf = s.ovf)
    (hfb : ∀ i, i < s.len.toNat → t.fb.read i = s.fb.read i) :
    SameParse s.parse t.parse ∧ SameError s.parse t.parse := by
  rcases parse_cases s with ⟨ho, hp⟩ | ⟨ho, hshort, hp⟩ | ⟨ho, h5, hp⟩
  · rw [hp, State.parse, if_pos (hovf.trans ho)]
    exact ⟨⟨rfl, rfl⟩, rfl, rfl⟩
  · rw [hp, State.parse, if_neg (by simp [hovf, ho]), if_pos (hlen ▸ hshort)]
    exact ⟨⟨rfl, rfl⟩, rfl, rfl⟩
  · rw [hp, parse_eq_dispatch (hovf.trans ho) (hlen ▸ h5), hfb 0 (Nat.lt_of_lt_of_le (by decide) h5)]
    exact dispatch_congr (s := s.invalidate) (t := t.invalidate) _ (mac_congr (s := s) hlen hfb)
      (trailer_congr (s := s) hlen (Nat.le_of_succ_le h5) hfb) hlen ⟨rfl, rfl⟩

/-- Settles O26: the two checks read LEN and OVF, and the dispatcher FB[0], MacPayload and the trailer. -/
theorem parseReadsTheFrameOnly : Obligations.ParseReadsTheFrameOnly := by
  intro d d' s s' t t' hlen hovf hfb ht ht'
  obtain rfl : s.parse = t := Host.Outcome.next.inj ht
  obtain rfl : s'.parse = t' := Host.Outcome.next.inj ht'
  exact parse_same_of_frame hlen.symm hovf.symm fun i hi => (hfb i hi).symm

end Sys2Proof.Machine

/-! ## The join rows -/

namespace Sys2Proof.Machine

/-! ### The common registers of a row run on its own -/

/-- The success commit on an MHdr byte given by its type code, over a frame with a MacPayload of n bytes (R13, R132). -/
theorem commit_mhdrByte (s : State) (code : BitVec 3) (low : BitVec 5) (v : Variant) (f : Results → Results) {n : Nat}
    (hlen : s.len.toNat = n + 5) :
    s.commit (mhdrByte code low) v f = { s with
      variant := v, err := .noError, errsub := 0
      results := f { s.results with
        mhdr := code ++ low, mtype := code, maclen := BitVec.ofNat 9 n
        mic := #v[s.fb.read (n + 1), s.fb.read (n + 2), s.fb.read (n + 3), s.fb.read (n + 4)] } } := by
  rw [State.commit, mtypeOf_mhdrByte, State.trailer, hlen]
  rfl

/-! ### The join-request row -/

/-- R140: JOINREQ_DECODE on the MacPayload of a frame of 23 bytes. -/
theorem joinreqDecode_fits {s : State} (hlen : s.len.toNat = 23) :
    joinreqDecode s.mac = .ok {
      appeui := BitVec.ofNat 64 (le (s.fb.slice 1 8))
      deveui := BitVec.ofNat 64 (le (s.fb.slice 9 8))
      devnonce := fit 2 (s.fb.slice 17 2) } := by
  have hmac := length_mac s
  rcases joinreqDecode_cases s.mac with ⟨hne, -⟩ | ⟨-, hcase⟩
  · omega
  · rw [hcase, sub_mac _ _ _ (by omega), sub_mac _ _ _ (by omega), sub_mac _ _ _ (by omega)]

/-- R141: JOINREQ_DECODE on the MacPayload of a frame of any other length. -/
theorem joinreqDecode_of_len_ne {s : State} (hlen : s.len.toNat ≠ 23) :
    joinreqDecode s.mac = .error { kind := .truncatedFrame, sub := 2 } := by
  have hmac := length_mac s
  rcases joinreqDecode_cases s.mac with ⟨-, hcase⟩ | ⟨heq, -⟩
  · exact hcase
  · omega

/-- Settles O15: the row commits the fields of JOINREQ_DECODE, or takes its error. -/
theorem joinRequestRow : Obligations.JoinRequestRow := by
  intro low s _
  rw [exec, execJoinRequest, State.joinRequestBranch]
  constructor
  · intro hlen
    rw [joinreqDecode_fits hlen]
    exact congrArg _ (commit_mhdrByte s 0 low _ _ (n := 18) hlen)
  · intro hlen
    rw [joinreqDecode_of_len_ne hlen]
    rfl

/-! ### The join-accept row -/

/-- R142, R144: JOINACC_DECODE on the MacPayload of a frame of 17 or 33 bytes. -/
theorem joinaccDecode_fits {s : State} (hlen : s.len.toNat = 17 ∨ s.len.toNat = 33) :
    joinaccDecode s.mac = .ok {
      appnonce := fit 3 (s.fb.slice 1 3)
      netid := fit 3 (s.fb.slice 4 3)
      devaddr := BitVec.ofNat 32 (le (s.fb.slice 7 4))
      dlsettings := s.fb.read 11
      rxdelay := s.fb.read 12
      cflistp := decide (s.len.toNat = 33)
      cflist := if s.len.toNat = 33 then fit 16 (s.fb.slice 13 16) else Vector.replicate 16 0 } := by
  have hmac := length_mac s
  rcases joinaccDecode_cases s.mac with ⟨h12, h28, -⟩ | ⟨-, hcase⟩
  · omega
  · rw [hcase, sub_mac _ _ _ (by omega), sub_mac _ _ _ (by omega), sub_mac _ _ _ (by omega),
      byteAt_mac _ _ (by omega), byteAt_mac _ _ (by omega), hmac]
    rcases hlen with h | h
    · simp [h]
    · simp [h, sub_mac]

/-- R143: JOINACC_DECODE on the MacPayload of a frame of any other length. -/
theorem joinaccDecode_of_len_ne {s : State} (h17 : s.len.toNat ≠ 17) (h33 : s.len.toNat ≠ 33) :
    joinaccDecode s.mac = .error { kind := .truncatedFrame, sub := 3 } := by
  have hmac := length_mac s
  rcases joinaccDecode_cases s.mac with ⟨-, -, hcase⟩ | ⟨heq, -⟩
  · exact hcase
  · omega

/-- Settles O16: the row commits the fields of JOINACC_DECODE, or takes its error. -/
theorem joinAcceptRow : Obligations.JoinAcceptRow := by
  intro low s _
  rw [exec, execJoinAccept, State.joinAcceptBranch]
  refine ⟨fun hlen => ?_, fun hlen => ?_, fun h17 h33 => ?_⟩
  · rw [joinaccDecode_fits (.inl hlen), hlen]
    exact congrArg _ (commit_mhdrByte s 1 low _ _ (n := 12) hlen)
  · rw [joinaccDecode_fits (.inr hlen), hlen]
    exact ⟨_, congrArg _ (commit_mhdrByte s 1 low _ _ (n := 28) hlen), rfl, toList_fit_of_length (Memory.length_slice ..)⟩
  · rw [joinaccDecode_of_len_ne h17 h33]
    rfl

end Sys2Proof.Machine

/-! ## The data messages -/

namespace Sys2Proof.Machine

/-! ### Confirmed and unconfirmed -/

/-- On a data frame that is long enough the MHdr byte and the variant given to the branch go to VARIANT, MHDR and MTYPE
only (R154). -/
theorem dataBranch_retag (s : State) (d : Direction) (hfits : 12 + s.wireFOptsLen ≤ s.len.toNat) (mhdr mhdr' : Byte)
    (v v' : Variant) :
    s.dataBranch mhdr' v' d = { s.dataBranch mhdr v d with
      variant := v'
      results := { (s.dataBranch mhdr v d).results with mhdr := mhdr', mtype := mtypeOf mhdr' } } := by
  obtain ⟨f, hdecode, -, hbranch⟩ := dataBranch_fits s mhdr v d hfits
  rw [hbranch, State.dataBranch, hdecode]
  rfl

/-- Settles O20: in each direction both rows are one branch, with another MHdr byte and variant. -/
theorem confirmedDiffersInTagOnly : Obligations.ConfirmedDiffersInTagOnly := by
  intro low s t u hfits
  constructor
  · rintro ⟨ht, hu⟩
    cases ht
    cases hu
    rw [dataBranch_retag s .uplink hfits (mhdrByte 2 low) _ .unconfirmedDataUp, mtypeOf_mhdrByte]
    rfl
  · rintro ⟨ht, hu⟩
    cases ht
    cases hu
    rw [dataBranch_retag s .downlink hfits (mhdrByte 3 low) _ .unconfirmedDataDown, mtypeOf_mhdrByte]
    rfl

/-! ### The lengths of a parsed data message -/

/-- A PARSE that leaves a data variant commits the fields of DATA_DECODE on a frame that is long enough (R125, R135). -/
theorem parse_held_data {s : State} (h2 : 2 ≤ s.parse.variant.tag.toNat) (h5 : s.parse.variant.tag.toNat ≤ 5) :
    12 + s.wireFOptsLen ≤ s.len.toNat ∧ ∃ v d f, dataDecode s.mac d = .ok f ∧
      s.parse = s.invalidate.commit (s.fb.read 0) v (fun r => r.withData f) := by
  have hv : s.parse.variant ≠ .noVariant := by
    intro hnone
    rw [hnone] at h5
    exact absurd h5 (by decide)
  obtain ⟨htag, -⟩ := parse_held_common s hv
  rcases parse_held_cases s hv with ⟨h0, -⟩ | ⟨h1, -⟩ | ⟨-, -, hfits, v, d, f, -, -, -, -, -, hdecode, hp⟩
  · omega
  · omega
  · exact ⟨hfits, v, d, f, hdecode, hp⟩

/-- The length registers, FOPTS and FRMOFF after a PARSE that leaves a data variant: without FPort the header is all of
MacPayload, and with it the payload is what FPort leaves (R115, R152). -/
theorem parse_data_lengths {s : State} (h2 : 2 ≤ s.parse.variant.tag.toNat) (h5 : s.parse.variant.tag.toNat ≤ 5) :
    s.parse.results.maclen.toNat = s.len.toNat - 5 ∧
    s.parse.results.fhdrlen.toNat = 7 + s.wireFOptsLen ∧
    s.parse.results.foptslen.toNat = s.wireFOptsLen ∧
    s.parse.results.fopts.toList = s.fb.slice 8 s.wireFOptsLen ++ List.replicate (15 - s.wireFOptsLen) 0 ∧
    (s.len.toNat = 12 + s.wireFOptsLen ∧ s.parse.results.fportp = false ∧ s.parse.results.frmlen = 0 ∧
        s.parse.results.frmoff = 0 ∨
      12 + s.wireFOptsLen < s.len.toNat ∧ s.parse.results.fportp = true ∧
        s.parse.results.frmlen.toNat = s.len.toNat - 13 - s.wireFOptsLen ∧
        s.parse.results.frmoff.toNat = if s.len.toNat = 13 + s.wireFOptsLen then 0 else 9 + s.wireFOptsLen) := by
  obtain ⟨hfits, v, d, f, hdecode, hp⟩ := parse_held_data h2 h5
  rw [hp, State.commit_results]
  obtain ⟨-, -, -, -, hoptslen, -, hopts, hhdrlen, hnoport, hport⟩ := withData_fits s hfits d f hdecode
    { s.invalidate.results with
      mhdr := s.fb.read 0, mtype := mtypeOf (s.fb.read 0), maclen := BitVec.ofNat 9 (s.len.toNat - 5)
      mic := fit 4 s.trailer }
  refine ⟨toNat_maclen s, hhdrlen, hoptslen, (congrArg Vector.toList hopts).trans
    (toList_fit_slice s.fb 8 (Nat.le_of_lt_succ (wireFOptsLen_lt s))), ?_⟩
  obtain heq | hlong := Nat.eq_or_lt_of_le hfits
  · obtain ⟨hportp, -, hfrmlen, hfrmoff⟩ := hnoport heq.symm
    exact .inl ⟨heq.symm, hportp, hfrmlen, hfrmoff⟩
  · obtain ⟨hportp, -, hfrmlen, hfrmoff⟩ := hport hlong
    exact .inr ⟨hlong, hportp, hfrmlen, hfrmoff⟩

/-- Settles O24: the sums of the two shapes of MacPayload, without and with FPort. -/
theorem dataLengthsAddUp : Obligations.DataLengthsAddUp := by
  intro d s t ht h2 h5 r
  obtain rfl : s.parse = t := Host.Outcome.next.inj ht
  have hlen : s.parse.len = s.len := by rw [parse_frame s, State.invalidate_len]
  obtain ⟨hmaclen, hhdrlen, hoptslen, hopts, hshape⟩ := parse_data_lengths h2 h5
  rw [hmaclen, hlen, hhdrlen, hoptslen]
  refine ⟨?_, rfl, Nat.le_of_lt_succ (wireFOptsLen_lt s), hopts, ?_⟩
  · rcases hshape with ⟨heq, hportp, hfrmlen, -⟩ | ⟨hlong, hportp, hfrmlen, -⟩
    · have hempty : s.parse.results.frmlen.toNat = 0 := congrArg BitVec.toNat hfrmlen
      rw [hportp, hempty, Bool.toNat_false]
      omega
    · rw [hportp, hfrmlen, Bool.toNat_true]
      omega
  · rcases hshape with ⟨-, -, hfrmlen, hfrmoff⟩ | ⟨hlong, hportp, hfrmlen, hfrmoff⟩
    · exact ⟨fun _ => hfrmlen, fun hpos => absurd (hfrmlen ▸ hpos) (by decide), fun _ => hfrmoff⟩
    · refine ⟨fun hno => absurd (hportp.symm.trans hno) (by decide), fun hpos => ?_, fun hzero => ?_⟩
      · rw [hfrmlen] at hpos
        rw [hfrmoff, if_neg (by omega), hfrmlen]
        omega
      · have hempty : s.len.toNat - 13 - s.wireFOptsLen = 0 := hfrmlen.symm.trans (congrArg BitVec.toNat hzero)
        rw [if_pos (by omega)] at hfrmoff
        exact BitVec.eq_of_toNat_eq hfrmoff

end Sys2Proof.Machine

/-! ## The MIC-input assembler and the MIC commands -/

namespace Sys2Proof.Machine

/-! ### The layout of the MIC input -/

theorem lebytes_zero : ∀ k : Nat, lebytes k 0 = List.replicate k 0
  | 0 => rfl
  | k + 1 => by rw [lebytes, Nat.zero_div, lebytes_zero k]; rfl

/-- A number of n bytes written in more of them has 0x00 above. -/
theorem lebytes_of_lt (k : Nat) : ∀ {n v : Nat}, v < 256 ^ n → lebytes (n + k) v = lebytes n v ++ List.replicate k 0
  | 0, v, h => by
    obtain rfl : v = 0 := Nat.lt_one_iff.mp h
    rw [Nat.zero_add, lebytes_zero]
    rfl
  | n + 1, v, h => by
    have hdiv : v / 256 < 256 ^ n := Nat.div_lt_of_lt_mul (by rwa [Nat.mul_comm, ← Nat.pow_succ])
    rw [Nat.add_right_comm, lebytes, lebytes, lebytes_of_lt k hdiv]
    rfl

/-- FCnt in B0: the 16-bit counter zero-extended to 32 bits (R164). -/
theorem lebytes_four_fcnt (fcnt : BitVec 16) : lebytes 4 fcnt.toNat = lebytes 2 fcnt.toNat ++ [0x00, 0x00] :=
  lebytes_of_lt 2 fcnt.isLt

/-- The MIC input of a join message has no B0 block (R161, R162). -/
theorem micIn_join {s : State} (h : s.variant = .joinRequest ∨ s.variant = .joinAccept) : s.micIn = s.fieldMsg := by
  rcases h with h | h
  · rw [State.micIn, h]
  · rw [State.micIn, h]

/-- The MIC input of a data message is B0 and the field form of the message (R163, R164). -/
theorem micIn_of_data {s : State} (h : s.variant = .unconfirmedDataUp ∨ s.variant = .unconfirmedDataDown ∨
    s.variant = .confirmedDataUp ∨ s.variant = .confirmedDataDown) : s.micIn = s.b0 ++ s.dataMsg := by
  have hvariant : s.variant ≠ .noVariant ∧ s.variant ≠ .joinRequest ∧ s.variant ≠ .joinAccept := by
    rcases h with h | h | h | h <;> simp [h]
  obtain ⟨hnone, hrequest, haccept⟩ := hvariant
  rw [micIn_data s hnone hrequest haccept, fieldMsg_data s hnone hrequest haccept]

/-- Settles O27: the field form of each variant, with B0 before it for a data message. -/
theorem micInputLayout : Obligations.MicInputLayout := by
  intro s r b0 dataMsg
  refine ⟨fun h => ?_, fun h => ?_, fun h => ?_⟩
  · rw [micIn_join (.inl h), State.fieldMsg, h]
    rfl
  · rw [micIn_join (.inr h), State.fieldMsg, h]
    simp [State.joinAcceptMsg, r]
  · rw [micIn_of_data h, State.b0, lebytes_four_fcnt]
    simp [State.dataMsg, State.frmPayload, fhdrEncode, b0, dataMsg, r]

/-! ### The MIC input of a parsed frame -/

/-- Settles O28: the model's law that each variant's fields put together are the bytes they were read from. -/
theorem fieldFormIsBufferForm : Obligations.FieldFormIsBufferForm := by
  intro d s t ht hv
  obtain rfl : s.parse = t := Host.Outcome.next.inj ht
  exact fieldMsg_parse s hv

/-- B0 as the frame's bytes make it: DIR is the low bit of the type code, DevAddr and FCnt stand at FB[1] and FB[6]
(R151, R164). -/
def State.wireB0 (s : State) : List Byte :=
  [0x49, 0x00, 0x00, 0x00, 0x00, BitVec.ofNat 8 (s.wireType % 2)] ++ s.fb.slice 1 4 ++
    (s.fb.slice 6 2 ++ [0x00, 0x00]) ++ [0x00, BitVec.ofNat 8 (s.len.toNat - 4)]

theorem length_wireB0 (s : State) : s.wireB0.length = 16 := by simp [State.wireB0]

/-- B0 after a PARSE that commits a data message is B0 of the frame's bytes. -/
theorem b0_parse (s : State) (hfits : 12 + s.wireFOptsLen ≤ s.len.toNat) {v : Variant} {d : Direction}
    {f : DataFields} (hdir : d.toByte.toNat = s.wireType % 2) (hf : dataDecode s.mac d = .ok f)
    (hp : s.parse = s.invalidate.commit (s.fb.read 0) v (fun r => r.withData f)) : s.parse.b0 = s.wireB0 := by
  have hres := withData_fits s hfits d f hf { s.invalidate.results with
    mhdr := s.fb.read 0, mtype := mtypeOf (s.fb.read 0), maclen := BitVec.ofNat 9 (s.invalidate.len.toNat - 5)
    mic := fit 4 s.invalidate.trailer }
  rw [← State.commit_results s.invalidate (s.fb.read 0) v (fun r => r.withData f), ← hp] at hres
  obtain ⟨hresdir, -, haddr, -, -, hcnt, -⟩ := hres
  have hlen : s.parse.len = s.len := by rw [hp]; rfl
  rw [State.b0, State.wireB0, lebytes_four_fcnt, hresdir, haddr, hcnt, hlen, ← hdir, BitVec.ofNat_toNat,
    BitVec.setWidth_eq, lebytes_register (Memory.length_slice ..) rfl, lebytes_register (Memory.length_slice ..) rfl]

/-- The MIC input of a held variant in the frame's bytes: FB[0 .. LEN-5], with B0 before it for a data message (R160,
R164, R176). -/
theorem micIn_parse (s : State) (hv : s.parse.variant ≠ .noVariant) :
    s.parse.micIn = (if 2 ≤ s.wireType then s.wireB0 else []) ++ s.fb.slice 0 (s.len.toNat - 4) := by
  rw [← fieldMsg_parse s hv]
  rcases parse_held_cases s hv with ⟨h0, -, hp⟩ | ⟨h1, -, hp⟩ |
    ⟨h2, -, hfits, v, d, f, -, hnone, hrequest, haccept, hdir, hf, hp⟩
  · rw [if_neg (by omega), micIn_join (.inl (by rw [hp]; rfl))]
    rfl
  · rw [if_neg (by omega), micIn_join (.inr (by rw [hp]; rfl))]
    rfl
  · have hvar : s.parse.variant = v := by rw [hp]; rfl
    rw [if_pos h2, micIn_data _ (hvar ▸ hnone) (hvar ▸ hrequest) (hvar ▸ haccept), b0_parse s hfits hdir hf hp]

theorem length_micIn_parse (s : State) (hv : s.parse.variant ≠ .noVariant) :
    s.parse.micIn.length = (if 2 ≤ s.wireType then 16 else 0) + (s.len.toNat - 4) := by
  rw [micIn_parse s hv, List.length_append, Memory.length_slice, apply_ite List.length, length_wireB0]
  rfl

/-- With no variant held there is no MIC input. -/
theorem micIn_of_noVariant {s : State} (h : s.variant = .noVariant) : s.micIn = [] := by
  rw [State.micIn, h]

/-- A join-accept has a CFList iff its frame has 33 bytes (R144). -/
theorem parse_joinAccept_length {s : State} (h : s.parse.variant = .joinAccept) :
    s.len.toNat = if s.parse.results.cflistp then 33 else 17 := by
  have hv : s.parse.variant ≠ .noVariant := by simp [h]
  rcases parse_held_cases s hv with ⟨-, -, hp⟩ | ⟨-, hlen, hp⟩ | ⟨-, -, -, v, d, f, -, -, -, haccept, -, -, hp⟩
  · rw [hp] at h
    cases h
  · rw [hp, State.commit_results, Results.withJoinAccept_cflistp]
    rcases hlen with hlen | hlen
    · simp [hlen]
    · simp [hlen]
  · rw [hp] at h
    exact absurd h haccept

/-- PARSE leaves a variant held on the frames that fit, and on no other (R135). -/
theorem parse_held_iff (s : State) : s.parse.variant ≠ .noVariant ↔ s.ovf = false ∧ FrameFits s := by
  refine ⟨fun hv => ?_, fun h => parse_held_of_fits h.1 h.2⟩
  by_contra hrefused
  exact hv (parseFailed_of_refused hrefused).1

/-- Settles O29: the message is the frame without its MIC, and B0 adds 16 bytes to a data message. -/
theorem micInputLengths : Obligations.MicInputLengths := by
  intro d s t ht
  obtain rfl : s.parse = t := Host.Outcome.next.inj ht
  refine ⟨fun h => ?_, fun h => ?_, fun h2 h5 => ?_⟩
  · have hv : s.parse.variant ≠ .noVariant := by simp [h]
    have htype : 0 = s.wireType := by simpa [h, Variant.tag] using (parse_held_common s hv).1
    have hfits := ((parse_held_iff s).mp hv).2
    rw [length_micIn_parse s hv, if_neg (by omega)]
    unfold FrameFits at hfits
    omega
  · have hv : s.parse.variant ≠ .noVariant := by simp [h]
    have htype : 1 = s.wireType := by simpa [h, Variant.tag] using (parse_held_common s hv).1
    rw [length_micIn_parse s hv, if_neg (by omega), parse_joinAccept_length h]
    split <;> rfl
  · have hv : s.parse.variant ≠ .noVariant := fun h => by simp [h, Variant.tag] at h5
    obtain ⟨htype, -⟩ := parse_held_common s hv
    obtain ⟨hfits, -⟩ := parse_held_data h2 h5
    have hlength : s.parse.micIn.length = s.len.toNat + 12 := by
      rw [length_micIn_parse s hv, if_pos (by omega)]
      omega
    rw [hlength]
    refine ⟨rfl, by omega, fun hmax => Nat.add_le_add_right hmax 12, fun hok hmax => ?_⟩
    obtain ⟨-, hcapacity⟩ : 33 ≤ s.config.phyMax ∧ s.config.phyMax ≤ 259 := by simpa [Config.ok] using hok
    omega

/-! ### What the MIC input depends on -/

/-- Frames of one length that agree up to the MIC fit together: the type code and FOptsLen stand before the MIC of every
frame that fits. -/
theorem FrameFits.congr {s t : State} (h : FrameFits s) (hlen : t.len = s.len)
    (hfb : ∀ i, i < s.len.toNat - 4 → t.fb.read i = s.fb.read i) : FrameFits t := by
  have h12 := h.twelve_le_len
  rwa [FrameFits, State.wireType, State.wireFOptsLen, hlen, hfb 0 (by omega), hfb 5 (by omega)]

/-- Frames of one length that agree up to the MIC are held or refused together. -/
theorem parse_held_congr {s t : State} (hovf : t.ovf = s.ovf) (hlen : t.len = s.len)
    (hfb : ∀ i, i < s.len.toNat - 4 → t.fb.read i = s.fb.read i) (hv : s.parse.variant ≠ .noVariant) :
    t.parse.variant ≠ .noVariant := by
  obtain ⟨ho, hfits⟩ := (parse_held_iff s).mp hv
  exact (parse_held_iff t).mpr ⟨hovf.trans ho, hfits.congr hlen hfb⟩

/-- The MIC input of a held variant is a function of FB[0 .. LEN-5] and LEN (R174). -/
theorem micIn_parse_congr {s t : State} (hovf : t.ovf = s.ovf) (hlen : t.len = s.len)
    (hfb : ∀ i, i < s.len.toNat - 4 → t.fb.read i = s.fb.read i) (hv : s.parse.variant ≠ .noVariant) :
    t.parse.micIn = s.parse.micIn := by
  have h12 := twelve_le_len_of_parse_held s hv
  have htype : t.wireType = s.wireType := by rw [State.wireType, hfb 0 (by omega), State.wireType]
  have haddr : t.fb.slice 1 4 = s.fb.slice 1 4 := Memory.slice_congr.mpr fun i _ => hfb _ (by omega)
  have hcnt : t.fb.slice 6 2 = s.fb.slice 6 2 := Memory.slice_congr.mpr fun i _ => hfb _ (by omega)
  have hmsg : t.fb.slice 0 (s.len.toNat - 4) = s.fb.slice 0 (s.len.toNat - 4) :=
    Memory.slice_congr.mpr fun i _ => hfb _ (by omega)
  rw [micIn_parse s hv, micIn_parse t (parse_held_congr hovf hlen hfb hv), State.wireB0, State.wireB0, hlen, htype,
    haddr, hcnt, hmsg]

/-- Settles O35: frames that agree up to the MIC are held together, and then have one MIC input, or neither has any. -/
theorem micInputIgnoresTheStoredMic : Obligations.MicInputIgnoresTheStoredMic := by
  intro d d' s s' t t' hovf hovf' hlen hfb ht ht'
  obtain rfl : s.parse = t := Host.Outcome.next.inj ht
  obtain rfl : s'.parse = t' := Host.Outcome.next.inj ht'
  have hsame : s.ovf = s'.ovf := hovf.trans hovf'.symm
  by_cases hv : s'.parse.variant = .noVariant
  · have hnone : s.parse.variant = .noVariant := by
      by_contra hheld
      exact parse_held_congr hsame.symm hlen.symm (fun i hi => (hfb i hi).symm) hheld hv
    rw [micIn_of_noVariant hv, micIn_of_noVariant hnone]
  · exact micIn_parse_congr hsame hlen (hlen ▸ hfb) hv

/-- Settles O36: the MIC input ends with the message, which has LEN - 4 bytes. -/
theorem alteredMessageChangesTheRequest : Obligations.AlteredMessageChangesTheRequest := by
  intro d d' s s' t t' hlen ht ht' hv hv' hmic i hi
  obtain rfl : s.parse = t := Host.Outcome.next.inj ht
  obtain rfl : s'.parse = t' := Host.Outcome.next.inj ht'
  rw [micIn_parse s hv, micIn_parse s' hv', ← hlen] at hmic
  have hmsg := List.append_inj_right' hmic (by rw [Memory.length_slice, Memory.length_slice])
  simpa using Memory.slice_congr.mp hmsg i hi

/-! ### The issue step and the completion step -/

/-- Settles O30: CALCMIC's two branches. -/
theorem calcmicIssue : Obligations.CalcmicIssue := by
  intro d key s
  rw [exec, execCalcmic]
  constructor
  · intro hv
    rw [if_neg hv]
    rfl
  · intro hv
    rw [if_pos hv]
    rfl

/-- VERIFY's issue step with a variant held (R169). -/
theorem exec_verify_of_held {s : State} (d : Byte) (key : List Byte) (hv : s.variant ≠ .noVariant) :
    exec (.verify d key) s = .next (s.clearMic.request .verify key) := by
  rw [exec, execVerify, if_neg hv]

/-- VERIFY's issue step with no variant held (R170). -/
theorem exec_verify_of_noVariant {s : State} (d : Byte) (key : List Byte) (hv : s.variant = .noVariant) :
    exec (.verify d key) s = .next s.clearMic := by
  rw [exec, execVerify, if_pos hv]

/-- A response that comes for an outstanding request completes it (R168, R171). -/
theorem step_response_of_pend {s : State} {p : Request} {rest : List Move} (hbusy : s.busy = true)
    (hpend : s.pend = some p) (hmoves : s.moves = .response :: rest) :
    step s = .next (State.completeMic { s with moves := rest } p.kind (cmac p.key p.msg)) := by
  rw [step, hmoves]
  exact respond_of_pend (s := { s with moves := rest }) hbusy hpend

/-- Settles O31: VERIFY's two branches, and the completion step, which does not write ERR and ERRSUB. -/
theorem verifyIssue : Obligations.VerifyIssue := by
  refine ⟨fun d key s => ⟨fun hv => exec_verify_of_held d key hv, fun hv => exec_verify_of_noVariant d key hv⟩, ?_⟩
  intro s p rest hbusy hpend _ hmoves
  exact ⟨_, step_response_of_pend hbusy hpend hmoves, rfl, rfl⟩

/-- An element of a byte-array register is the byte of the sequence put into it, or 0x00 beyond its end. -/
theorem getElem_fit (n : Nat) (bs : List Byte) (i : Nat) (hi : i < n) : (fit n bs)[i] = bs.getD i 0 := by
  rw [← Vector.getElem_toList (by simpa using hi)]
  simp only [toList_fit, List.getElem_append, List.getElem_take, List.getElem_replicate]
  by_cases hin : i < bs.length
  · rw [dif_pos (by rw [List.length_take]; omega), List.getD_eq_getElem _ _ hin]
  · rw [dif_neg (by rw [List.length_take]; omega), List.getD_eq_default _ _ (Nat.le_of_not_lt hin)]

/-- The register of four bytes, element by element. -/
theorem fit_four (bs : List Byte) : fit 4 bs = #v[bs.getD 0 0, bs.getD 1 0, bs.getD 2 0, bs.getD 3 0] := by
  ext1 i hi
  rw [getElem_fit]
  match i, hi with
  | 0, _ => rfl
  | 1, _ => rfl
  | 2, _ => rfl
  | 3, _ => rfl

/-- MICOK after the completion step: a CALCMIC never sets it, a VERIFY does by the comparison (R168, R171). -/
theorem completeMic_micok_eq (s : State) (kind : MicKind) (tag : List Byte) :
    (s.completeMic kind tag).micok = decide (kind = .verify ∧ fit 4 tag = s.results.mic) := by
  match kind with
  | .calc => simp
  | .verify => simp

/-- Settles O32: the response completes the request, and CMIC is the register of the tag's first four bytes. -/
theorem completionTakesTheTag : Obligations.CompletionTakesTheTag := by
  intro s p rest hbusy hpend hmoves tag first4
  have hfit : fit 4 tag = first4 := fit_four tag
  rw [step_response_of_pend hbusy hpend hmoves, ← hfit,
    ← completeMic_micok_eq { s with moves := rest } p.kind tag]
  rfl

/-! ### VERIFY sees every MIC byte -/

/-- With no move left the engine answers what is outstanding (R182). -/
theorem step_of_no_moves {s : State} (hmoves : s.moves = []) : step s = respond s := by
  rw [step, hmoves]

/-- With nothing outstanding the engine has nothing to answer (R236). -/
theorem respond_of_idle {s : State} (hbusy : s.busy = false) : respond s = .next s := by
  rw [respond, if_neg (by simp [hbusy])]

/-- VERIFY of a held variant and the engine's answer: CMIC is the tag's first four bytes, and MICOK whether they are the
stored MIC (R169, R171, R182). -/
theorem step_verify_of_held {s t u : State} {d : Byte} {key : List Byte} (hmoves : s.moves = [])
    (hv : s.variant ≠ .noVariant) (ht : exec (.verify d key) s = .next t) (hu : step t = .next u) :
    u.cmic = fit 4 (cmac key s.micIn) ∧ u.micok = decide (fit 4 (cmac key s.micIn) = s.results.mic) := by
  rw [exec_verify_of_held d key hv] at ht
  obtain rfl := Host.Outcome.next.inj ht
  rw [step_of_no_moves (s := s.clearMic.request .verify key) hmoves, respond_of_pend rfl rfl] at hu
  obtain rfl := Host.Outcome.next.inj hu
  exact ⟨rfl, rfl⟩

/-- VERIFY with no variant held sends no request, and MICOK stays 0 (R170). -/
theorem step_verify_of_noVariant {s t u : State} {d : Byte} {key : List Byte} (hbusy : s.busy = false)
    (hmoves : s.moves = []) (hv : s.variant = .noVariant) (ht : exec (.verify d key) s = .next t)
    (hu : step t = .next u) : u.micok = false := by
  rw [exec_verify_of_noVariant d key hv] at ht
  obtain rfl := Host.Outcome.next.inj ht
  rw [step_of_no_moves (s := s.clearMic) hmoves, respond_of_idle (s := s.clearMic) hbusy] at hu
  obtain rfl := Host.Outcome.next.inj hu
  rfl

theorem parse_busy (s : State) : s.parse.busy = s.busy := by rw [parse_frame s, State.invalidate_busy]

theorem parse_moves (s : State) : s.parse.moves = s.moves := by rw [parse_frame s, State.invalidate_moves]

/-- Frames that differ in a byte of the MIC have different stored MICs after PARSE (R128). -/
theorem parse_mic_ne {s t : State} (hv : s.parse.variant ≠ .noVariant) (hv' : t.parse.variant ≠ .noVariant)
    (hlen : t.len = s.len) {i : Nat} (hi : i < 4)
    (hne : s.fb.read (s.len.toNat - 4 + i) ≠ t.fb.read (s.len.toNat - 4 + i)) :
    s.parse.results.mic ≠ t.parse.results.mic := by
  intro hmic
  have hslice : s.fb.slice (s.len.toNat - 4) 4 = t.fb.slice (s.len.toNat - 4) 4 := by
    rw [← parse_mic s hv, hmic, parse_mic t hv', hlen]
  exact hne (Memory.slice_congr.mp hslice i hi)

/-- Settles O37: both requests are one, and so is CMIC; it cannot equal two stored MICs. -/
theorem verifySeesEveryMicByte : Obligations.VerifySeesEveryMicByte := by
  intro d key s s' t t' u u' i hbusy _ hovf hovf' hlen _ hfb hi hne hmoves hmoves'
  rintro ⟨p, hp, ht, hu⟩ ⟨p', hp', ht', hu'⟩ hok
  obtain rfl : s.parse = p := Host.Outcome.next.inj hp
  obtain rfl : s'.parse = p' := Host.Outcome.next.inj hp'
  have hv : s.parse.variant ≠ .noVariant := fun hnone => by
    simp [step_verify_of_noVariant ((parse_busy s).trans hbusy) ((parse_moves s).trans hmoves) hnone ht hu] at hok
  have hsame : s'.ovf = s.ovf := hovf'.trans hovf.symm
  have hfb' : ∀ j, j < s.len.toNat - 4 → s'.fb.read j = s.fb.read j := fun j hj => (hfb j hj).symm
  have hv' := parse_held_congr hsame hlen.symm hfb' hv
  obtain ⟨hcmic, hmicok⟩ := step_verify_of_held ((parse_moves s).trans hmoves) hv ht hu
  obtain ⟨hcmic', hmicok'⟩ := step_verify_of_held ((parse_moves s').trans hmoves') hv' ht' hu'
  rw [micIn_parse_congr hsame hlen.symm hfb' hv] at hcmic' hmicok'
  have hequal := of_decide_eq_true (hmicok.symm.trans hok)
  refine ⟨?_, hcmic'.trans hcmic.symm⟩
  rw [hmicok', hequal]
  exact decide_eq_false (parse_mic_ne hv hv' hlen.symm hi hne)

end Sys2Proof.Machine

/-! ## The CMAC engine -/

namespace Sys2Proof.Machine

/-! ### The links of the chain -/

/-- A message of at most one block is the last link, whatever the bound. -/
theorem cmacChain_of_le (key k1 k2 : List Byte) (fuel : Nat) (x : List Byte) {m : List Byte} (hm : m.length ≤ 16) :
    cmacChain key k1 k2 fuel x m = aes key (xorBlock x (cmacLast k1 k2 m)) := by
  match fuel with
  | 0 => rw [cmacChain]
  | fuel + 1 => rw [cmacChain, if_pos hm]

/-- A longer message is a whole block, which one AES chains, and the rest. -/
theorem cmacChain_succ_of_lt (key k1 k2 : List Byte) (fuel : Nat) (x : List Byte) {m : List Byte}
    (hm : 16 < m.length) :
    cmacChain key k1 k2 (fuel + 1) x m = cmacChain key k1 k2 fuel (aes key (xorBlock x (m.take 16))) (m.drop 16) := by
  rw [cmacChain, if_neg (Nat.not_le.mpr hm)]

/-! ### The length of a tag -/

/-- A link of the chain gives 16 bytes. -/
theorem length_aes_xorBlock {key x b : List Byte} (hkey : key.length = 16) (hx : x.length = 16)
    (hb : b.length = 16) : (aes key (xorBlock x b)).length = 16 :=
  length_aes _ _ hkey (by rw [length_xorBlock, hx, hb, min_self])

/-- The chain gives 16 bytes when its bound leaves at most one block for the last link. -/
theorem length_cmacChain {key k1 k2 : List Byte} (hkey : key.length = 16) (h1 : k1.length = 16)
    (h2 : k2.length = 16) (fuel : Nat) (x m : List Byte) (hx : x.length = 16) (hm : m.length ≤ 16 * (fuel + 1)) :
    (cmacChain key k1 k2 fuel x m).length = 16 := by
  induction fuel generalizing x m with
  | zero =>
    rw [cmacChain_of_le _ _ _ _ _ hm]
    exact length_aes_xorBlock hkey hx (length_cmacLast _ _ _ h1 h2 hm)
  | succ fuel ih =>
    rcases Nat.lt_or_ge 16 m.length with hmore | hlast
    · rw [cmacChain_succ_of_lt _ _ _ _ _ hmore]
      exact ih _ _ (length_aes_xorBlock hkey hx (List.length_take_of_le hmore.le)) (by rw [List.length_drop]; omega)
    · rw [cmacChain_of_le _ _ _ _ _ hlast]
      exact length_aes_xorBlock hkey hx (length_cmacLast _ _ _ h1 h2 hlast)

/-- Settles O33: the subkeys are blocks, and a message of n bytes has at most n / 16 blocks before its last. -/
theorem tagHasSixteenBytes : Obligations.TagHasSixteenBytes := by
  intro key msg hkey
  have hzero : (List.replicate 16 (0 : Byte)).length = 16 := List.length_replicate
  have hk1 := length_dbl _ (length_aes key _ hkey hzero)
  exact length_cmacChain hkey hk1 (length_dbl _ hk1) _ _ _ hzero (by omega)

/-! ### The tag of scenario 5 (section 2.3) -/

/-- The key K of the source's scenario 5. -/
def scenarioFiveKey : List Byte :=
  [0x44, 0x02, 0x42, 0x41, 0xED, 0x4C, 0xE9, 0xA6, 0x8C, 0x6A, 0x8B, 0xC0, 0x55, 0x23, 0x3F, 0xD3]

/-- The subkey K1 of scenario 5's key. -/
def scenarioFiveK1 : List Byte :=
  [0x33, 0x8D, 0xEE, 0x0F, 0xA2, 0xFA, 0xBD, 0x40, 0x5C, 0x2A, 0x1B, 0xAE, 0x6C, 0x00, 0x11, 0x6F]

/-- The subkey K2 of scenario 5's key. -/
def scenarioFiveK2 : List Byte :=
  [0x67, 0x1B, 0xDC, 0x1F, 0x45, 0xF5, 0x7A, 0x80, 0xB8, 0x54, 0x37, 0x5C, 0xD8, 0x00, 0x22, 0xDE]

/-- The value L = AES(K, 0) that the subkeys come from. -/
theorem aes_scenarioFiveKey_zero :
    aes scenarioFiveKey (List.replicate 16 0) =
      [0x99, 0xC6, 0xF7, 0x07, 0xD1, 0x7D, 0x5E, 0xA0, 0x2E, 0x15, 0x0D, 0xD7, 0x36, 0x00, 0x08, 0xF4] := by
  decide +kernel

theorem dbl_aes_scenarioFiveKey_zero : dbl (aes scenarioFiveKey (List.replicate 16 0)) = scenarioFiveK1 := by
  rw [aes_scenarioFiveKey_zero]
  decide

theorem dbl_scenarioFiveK1 : dbl scenarioFiveK1 = scenarioFiveK2 := by decide

/-- The MIC input of scenario 5: B0, then the nine bytes of the frame before its MIC. -/
def scenarioFiveMicIn : List Byte :=
  [0x49, 0x00, 0x00, 0x00, 0x00, 0x00, 0xF1, 0x7D, 0xBE, 0x49, 0x03, 0x00, 0x00, 0x00, 0x00, 0x09] ++
  [0x40, 0xF1, 0x7D, 0xBE, 0x49, 0x00, 0x03, 0x00, 0x01]

/-- Settles O34: under the subkeys section 2.3 lists, one AES chains B0, and the padded rest is the last link. -/
theorem cmacScenarioFive : Obligations.CmacScenarioFive := by
  change cmac scenarioFiveKey scenarioFiveMicIn = _
  rw [cmac, dbl_aes_scenarioFiveKey_zero, dbl_scenarioFiveK1,
    show scenarioFiveMicIn.length / 16 = 0 + 1 from rfl, cmacChain_succ_of_lt _ _ _ _ _ (by decide),
    cmacChain_of_le _ _ _ _ _ (by decide)]
  decide +kernel

end Sys2Proof.Machine

/-! ## SERIALIZE -/

namespace Sys2Proof.Machine

/-! ### The layout of SER() -/

/-- SER() of a join-request: R161's message, then the stored MIC. -/
theorem ser_of_joinRequest {s : State} (h : s.variant = .joinRequest) :
    s.ser = s.joinRequestMsg ++ s.results.mic.toList := by
  rw [State.ser, State.fieldMsg, h]

/-- SER() of a join-accept: R162's message, then the stored MIC. -/
theorem ser_of_joinAccept {s : State} (h : s.variant = .joinAccept) :
    s.ser = s.joinAcceptMsg ++ s.results.mic.toList := by
  rw [State.ser, State.fieldMsg, h]

/-- SER() of a data message: R163's message, then the stored MIC. -/
theorem ser_of_data {s : State} (h : s.variant = .unconfirmedDataUp ∨ s.variant = .unconfirmedDataDown ∨
    s.variant = .confirmedDataUp ∨ s.variant = .confirmedDataDown) : s.ser = s.dataMsg ++ s.results.mic.toList := by
  rcases h with h | h | h | h <;> rw [State.ser, State.fieldMsg, h]

/-- Settles O38: the message of each variant, with the stored MIC after it. -/
theorem serLayout : Obligations.SerLayout := by
  intro s r
  refine ⟨fun h => ?_, fun h => ?_, fun h => ?_⟩
  · rw [ser_of_joinRequest h, State.joinRequestMsg]
  · rw [ser_of_joinAccept h, State.joinAcceptMsg]
    simp [r]
  · rw [ser_of_data h, State.dataMsg, State.frmPayload]

/-! ### What SERIALIZE writes -/

/-- With a variant held SERIALIZE writes OB and OLEN (R195). -/
theorem exec_serialize_of_held {s : State} (d : Byte) (hv : s.variant ≠ .noVariant) :
    exec (.serialize d) s =
      .next { s with ob := s.ob.writeBytes 0 s.ser, olen := BitVec.ofNat 9 s.ser.length } :=
  if_neg hv

/-- With none held SERIALIZE clears OLEN (R198). -/
theorem exec_serialize_of_noVariant {s : State} (d : Byte) (hv : s.variant = .noVariant) :
    exec (.serialize d) s = .next { s with olen := 0 } :=
  if_pos hv

/-- Bytes written from address 0 up stand at their own indices. -/
theorem Memory.read_writeBytes_zero {m : Memory} (bs : List Byte) {i : Nat} (hi : i < bs.length) (hm : m.wf = true) :
    (m.writeBytes 0 bs).read i = bs[i] := by
  simpa only [Nat.zero_add] using Memory.read_writeBytes_same (a := 0) bs i hi hm

/-- Settles O39: OB is written at the indices of SER() only, and the nine bits of OLEN hold a length below 512. -/
theorem serializeWritesTheOutput : Obligations.SerializeWritesTheOutput := by
  intro d s hwf hlt
  refine ⟨fun hv => ⟨_, exec_serialize_of_held d hv, Nat.mod_eq_of_lt hlt, fun i hi => ?_, fun a ha => ?_,
    ⟨fun _ => rfl, rfl, rfl⟩, ⟨rfl, rfl⟩, ⟨rfl, rfl⟩, ⟨rfl, rfl, rfl⟩, ⟨rfl, rfl⟩, rfl, rfl, rfl, rfl⟩,
    exec_serialize_of_noVariant d⟩
  · rw [List.getD_eq_getElem _ _ hi]
    exact Memory.read_writeBytes_zero _ hi hwf
  · exact Memory.read_writeBytes_other _ (.inr (by rwa [Nat.zero_add]))

/-! ### The round trip -/

theorem parse_ob (s : State) : s.parse.ob = s.ob := by rw [parse_frame s, State.invalidate_ob]

/-- Settles O40: SER() after PARSE is FB[0 .. LEN-1], and SERIALIZE writes it over OB, which PARSE left alone. -/
theorem serializeRoundTrip : Obligations.SerializeRoundTrip := by
  intro d d' s t hwf ht hv
  obtain rfl : s.parse = t := Host.Outcome.next.inj ht
  refine ⟨_, exec_serialize_of_held d' hv, ?_, fun i hi => ?_⟩
  · simp only [ser_parse s hv, Memory.length_slice, BitVec.ofNat_toNat, BitVec.setWidth_eq]
  · simp only [ser_parse s hv, parse_ob]
    rw [Memory.read_writeBytes_zero _ (by simpa using hi) hwf, Memory.getElem_slice, Nat.zero_add]

end Sys2Proof.Machine

/-! ## Reset, late responses, and that the block never stops -/

namespace Sys2Proof.Machine

/-! ### Reset and the late response -/

/-- Settles O45: the response is the engine's move, and an idle block has nothing for it to complete (R236). -/
theorem lateResponseDiscarded : Obligations.LateResponseDiscarded := by
  intro s rest hbusy hmoves
  rw [step, hmoves]
  exact respond_of_idle (s := { s with moves := rest }) hbusy

/-- The step on a reset, which does not look at BUSY (R235). -/
theorem step_reset {s : State} {rest : List Move} (hmoves : s.moves = .reset :: rest) :
    step s = .next (State.applyReset { s with moves := rest }) := by
  rw [step, hmoves]

/-- Settles O44: the state after reset is idle, so the abandoned request's response is a late one (R235, R236). -/
theorem resetAbandonsTheRequest : Obligations.ResetAbandonsTheRequest := by
  intro s rest hmoves
  exact ⟨_, step_reset hmoves, rfl, fun rest' hrest => lateResponseDiscarded _ rest' rfl hrest⟩

/-! ### Every instruction completes -/

/-- Settles O54: the four commands that branch answer a next state on both sides; every other row answers one outright,
and an error it takes is recorded in that state (R205, R214, R215). -/
theorem everyInstructionCompletes : Obligations.EveryInstructionCompletes := by
  intro i s
  cases i with
  | push b =>
    rcases Nat.lt_or_ge s.len.toNat s.config.phyMax with hroom | hfull
    · exact ⟨_, execPush_of_room b hroom⟩
    · exact ⟨_, execPush_of_full b hfull⟩
  | calcmic d key =>
    obtain ⟨hheld, hnone⟩ := calcmicIssue d key s
    by_cases hv : s.variant = .noVariant
    · exact ⟨_, hnone hv⟩
    · exact ⟨_, hheld hv⟩
  | verify d key =>
    by_cases hv : s.variant = .noVariant
    · exact ⟨_, exec_verify_of_noVariant d key hv⟩
    · exact ⟨_, exec_verify_of_held d key hv⟩
  | serialize d =>
    by_cases hv : s.variant = .noVariant
    · exact ⟨_, exec_serialize_of_noVariant d hv⟩
    · exact ⟨_, exec_serialize_of_held d hv⟩
  | _ => exact ⟨_, rfl⟩

/-! ### The step never stops -/

/-- The engine's move goes on but for the hang of R245, BUSY = 1 with no request to answer (log 14). -/
theorem respond_next_or_hang (s : State) :
    (∃ t, respond s = .next t) ∨
    (s.busy = true ∧ s.pend = none ∧ respond s = .fault .busyWithoutRequest) := by
  rcases respond_cases s with ⟨-, hr⟩ | ⟨p, -, -, hr⟩ | hhang
  · exact .inl ⟨_, hr⟩
  · exact .inl ⟨_, hr⟩
  · exact .inr hhang

/-- The step goes on in every state but for the hang of R245. -/
theorem step_next_or_hang (s : State) :
    (∃ t, step s = .next t) ∨ (s.busy = true ∧ s.pend = none ∧ step s = .fault .busyWithoutRequest) := by
  rcases step_cases s with ⟨-, hs⟩ | ⟨cw, key, rest, -, -, hs⟩ | ⟨cw, key, rest, -, -, hs⟩ | ⟨rest, -, hs⟩ |
    ⟨no, idx, rest, -, hs⟩ | ⟨rest, -, hs⟩ <;> rw [hs]
  · exact respond_next_or_hang s
  · exact respond_next_or_hang s
  · exact .inl (everyInstructionCompletes (decodeCommand cw key) { s with moves := rest })
  · exact respond_next_or_hang { s with moves := rest }
  · exact .inl ⟨_, rfl⟩
  · exact .inl ⟨_, rfl⟩

/-- With PEND defined exactly while BUSY = 1 (R22) there is no hang. -/
theorem exists_step_of_inv {s : State} (h : Inv s) : ∃ t, step s = .next t := by
  rcases step_next_or_hang s with hnext | ⟨hbusy, hpend, -⟩
  · exact hnext
  · have hpending := h.busyIffPending
    simp [hbusy, hpend] at hpending

/-- Neither the next state nor the hang is a refusal (R205). -/
theorem step_ne_refused (s : State) (r : Refusal) : step s ≠ .refused r := by
  rcases step_next_or_hang s with ⟨t, ht⟩ | ⟨-, -, hhang⟩
  · simp [ht]
  · simp [hhang]

/-- Settles O57: the one stop of the step is the hang, which the invariant shuts out. -/
theorem stepNeverStops : Obligations.StepNeverStops :=
  ⟨fun _ h => exists_step_of_inv h, step_ne_refused⟩

end Sys2Proof.Machine
